-- ==== Sys2Proof/Word.lean ====
section
/-! DEFINITION. Words and levels of e-paper_panel_fsm: the widths of 00_scope.md R8 and the line levels of R10. -/

namespace Sys2Proof

/-- A panel bus byte, and a pixel (00_scope.md R8). -/
abbrev Byte := BitVec 8

/-- A host register word (00_scope.md R8). -/
abbrev Word := BitVec 32

/-- A host operation code, the field OP (30_encoding.md R91). -/
abbrev OpCode := BitVec 3

/-- A clean two-valued level: what an input shows after the synchroniser (10_state.md R28), and what the serial
pair carries while it is driven. -/
inductive Logic
  | lo
  | hi
deriving DecidableEq, Repr

/-- The level of a line: `Lo`, `Hi` or `Z`, not driven (00_scope.md R10). -/
inductive Level
  | lo
  | hi
  | z
deriving DecidableEq, Repr

/-- The driven level that carries a bit: 1 is `Hi`. -/
def Logic.ofBool (b : Bool) : Logic := if b then .hi else .lo

/-- A driven level as a line level. -/
def Logic.level : Logic → Level
  | .lo => .lo
  | .hi => .hi

end Sys2Proof
end

