-- ==== Sys2Proof/Config.lean ====
section
/-! DEFINITION. The configuration parameters of 00_scope.md R7 (fixed when the block is built, 10_state.md R36) and the
free values: opaque constants with no body, of which nothing can be proved. -/

namespace Sys2Proof

/-- The pixel-sampling window of the packer (00_scope.md R7, 43_framebuffer_encoder.md R202). -/
inductive Sampling
  | nominal
  | legacy
deriving DecidableEq, Repr

/-- The byte memories of the block whose contents after reset are unspecified (20_memory.md R60, 10_state.md R39). -/
inductive Space
  | img
  | pk
  | pla
  | plb
deriving DecidableEq, Repr

/-- One build of the block: every parameter of 00_scope.md R7, of 40_bus_transport.md R123 and of 20_memory.md R71.
Times are in milliseconds (`tReset`, `tSettle`) or nanoseconds, the clock rate in hertz; the model is untimed
(41_handshake.md R144), so no step reads them (log 15), and the bases are the platform's (log 22). -/
structure Config where
  /-- Panel width in pixels. -/
  w : Nat
  /-- Panel height in pixels. -/
  h : Nat
  /-- Payload of 0x01. -/
  pPwr : List Byte
  /-- Payload of 0x06. -/
  pBtst : List Byte
  /-- Payload of 0x00. -/
  pPsr : List Byte
  /-- Payload of 0x30. -/
  pPll : List Byte
  /-- Payload of 0x61. -/
  pTres : List Byte
  /-- Payload of 0x82. -/
  pVdcs : List Byte
  /-- Payload of 0x50. -/
  pCdi : List Byte
  /-- Waveform table 0, common voltage. -/
  lutVcom : Vector Byte 42
  /-- Waveform table 1, white to white. -/
  lutWw : Vector Byte 42
  /-- Waveform table 2, black to white. -/
  lutBw : Vector Byte 42
  /-- Waveform table 3, white to black. -/
  lutWb : Vector Byte 42
  /-- Waveform table 4, black to black. -/
  lutBb : Vector Byte 42
  /-- The level of BUSY that means ready. -/
  busyReadyLevel : Logic
  /-- The sampling window of the packer. -/
  sampling : Sampling
  /-- Least hold of a Reset level, ms. -/
  tReset : Nat
  /-- Settle and poll delay, ms. -/
  tSettle : Nat
  /-- Serial clock rate, Hz. -/
  fSclk : Nat
  /-- ENABLE set-up before the clock, ns. -/
  tCsSetup : Nat
  /-- ENABLE hold after the clock, ns. -/
  tCsHold : Nat
  /-- MODE set-up before the clock, ns. -/
  tModeSetup : Nat
  /-- Gap between two bytes, ns. -/
  tGap : Nat
  /-- Where the platform places HREG. -/
  hregBase : Nat
  /-- Where the platform places IMG. -/
  imgBase : Nat
deriving DecidableEq, Repr

/-- `NPIX = W*H` (00_scope.md R7). -/
def Config.npix (c : Config) : Nat := c.w * c.h

/-- `NPK = W*H/4`, the packed buffer's length (00_scope.md R7). -/
def Config.npk (c : Config) : Nat := c.w * c.h / 4

/-- `NPL = W*H/8`, a plane's length (00_scope.md R7). -/
def Config.npl (c : Config) : Nat := c.w * c.h / 8

/-- OPEN payload of 0x01 (D16). -/
opaque Config.openPwr : List Byte
/-- OPEN payload of 0x06 (D16). -/
opaque Config.openBtst : List Byte
/-- OPEN payload of 0x00 (D16). -/
opaque Config.openPsr : List Byte
/-- OPEN payload of 0x30 (D16). -/
opaque Config.openPll : List Byte
/-- OPEN payload of 0x61 (D16). -/
opaque Config.openTres : List Byte
/-- OPEN payload of 0x82 (D16). -/
opaque Config.openVdcs : List Byte
/-- OPEN payload of 0x50 (D16). -/
opaque Config.openCdi : List Byte
/-- OPEN contents of waveform table `t` (D17). -/
opaque Config.openLut : Nat → Vector Byte 42
/-- OPEN polarity of BUSY (D18): whether `Hi` means ready. -/
opaque Config.openReadyIsHigh : Bool
/-- OPEN sampling mode (D19): whether it is Legacy. -/
opaque Config.openSamplingIsLegacy : Bool
/-- OPEN serial timing (D32) and base addresses (20_memory.md R71), by a number of the model's. -/
opaque Config.openNumber : Nat → Nat

/-- The hardware of this spec: 400 by 300 (D1), the nominal times of 00_scope.md R7, everything else OPEN (log 4). -/
def Config.hw : Config where
  w := 400
  h := 300
  pPwr := Config.openPwr
  pBtst := Config.openBtst
  pPsr := Config.openPsr
  pPll := Config.openPll
  pTres := Config.openTres
  pVdcs := Config.openVdcs
  pCdi := Config.openCdi
  lutVcom := Config.openLut 0
  lutWw := Config.openLut 1
  lutBw := Config.openLut 2
  lutWb := Config.openLut 3
  lutBb := Config.openLut 4
  busyReadyLevel := Logic.ofBool Config.openReadyIsHigh
  sampling := if Config.openSamplingIsLegacy then .legacy else .nominal
  tReset := 200
  tSettle := 50
  fSclk := 4000000
  tCsSetup := Config.openNumber 0
  tCsHold := Config.openNumber 1
  tModeSetup := Config.openNumber 2
  tGap := Config.openNumber 3
  hregBase := Config.openNumber 4
  imgBase := Config.openNumber 5

/-- Free value: whether BUSY reads `Hi` at the `n`-th draw (41_handshake.md R141: each sample is a fresh draw; log 3). -/
opaque Config.freeBusyIsHigh : Nat → Bool

/-- Free value: whether the `n`-th draw of `bus_err` is 1 (10_state.md R27; log 3). -/
opaque Config.freeBusErr : Nat → Bool

/-- Free value: the byte a memory holds at an index nothing has written since block reset number `epoch`
(10_state.md R39: a model draws each byte; log 5). -/
opaque Config.freeByte : Space → (epoch : Nat) → (index : Nat) → Byte

end Sys2Proof
end

