-- ==== Sys2Proof/Syntax.lean ====
section
/-! DEFINITION. The instructions: one constructor per row of spec/opcode_table.json. A host operation carries the bits
31:3 of the word written to CMD, which are ignored (30_encoding.md R90); a panel command has no operand field, its data
come from a fixed source (R95). -/

namespace Sys2Proof

/-- The host operations and reserved host codes of 30_encoding.md R91, and the 18 panel opcodes of R94. -/
inductive Instr
  /-- OP 1 (42_state_machine.md R163). -/
  | wake (ignored : BitVec 29)
  /-- OP 2 (R171). -/
  | display (ignored : BitVec 29)
  /-- OP 3 (R172). -/
  | clear (ignored : BitVec 29)
  /-- OP 4 (R173). -/
  | sleep (ignored : BitVec 29)
  /-- OP 5 (R174). -/
  | teardown (ignored : BitVec 29)
  /-- OP 0, reserved (R176). -/
  | reservedOp0 (ignored : BitVec 29)
  /-- OP 6, reserved (R176). -/
  | reservedOp6 (ignored : BitVec 29)
  /-- OP 7, reserved (R176). -/
  | reservedOp7 (ignored : BitVec 29)
  /-- 0x01 (44_panel_commands.md R230). -/
  | powerSettings
  /-- 0x06 (R231). -/
  | boosterSoftStart
  /-- 0x04 (R232). -/
  | powerOn
  /-- 0x00 (R233). -/
  | panelSettings
  /-- 0x30 (R234). -/
  | pll
  /-- 0x61 (R235). -/
  | resolution
  /-- 0x82 (R236). -/
  | vcomDc
  /-- 0x50 (R237). -/
  | vcomInterval
  /-- 0x20 (R238). -/
  | lutVcom
  /-- 0x21 (R239). -/
  | lutWw
  /-- 0x22 (R240). -/
  | lutBw
  /-- 0x23 (R241). -/
  | lutWb
  /-- 0x24 (R242). -/
  | lutBb
  /-- 0x10 (R243). -/
  | dataOld
  /-- 0x13 (R244). -/
  | dataNew
  /-- 0x12 (R245). -/
  | refresh
  /-- 0x02 (R246). -/
  | powerOff
  /-- 0x07 (R247). -/
  | deepSleep
deriving DecidableEq, Repr

end Sys2Proof
end

