-- ==== Sys2Proof/Decode.lean ====
section
/-! DEFINITION. The decoder of both encoded forms of 30_encoding.md (R90 `host_cmd`, R93 `panel_cmd`), total on any
word, byte and byte sequence, rejecting by name; the encoder, written from the same tables (R91, R94); and the opcode
table's masks. -/

namespace Sys2Proof

/-- An encoded instruction: a word written to CMD (30_encoding.md R90), or the command byte of a panel transaction
(R93). -/
inductive Code
  | host (w : Word)
  | panel (b : Byte)
deriving DecidableEq, Repr

/-- Why a panel transaction is no instruction: its first byte is none of the 18 opcodes (30_encoding.md R97), it has no
command byte, or it ends before the data length of R95 (R98). -/
inductive DecodeError
  | unknownOpcode (b : Byte)
  | noCommandByte
  | tooShort (i : Instr) (got : Nat) (want : Nat)
deriving DecidableEq, Repr

/-- The field OP of a CMD word, bits 2:0 (30_encoding.md R90). -/
def opField (w : Word) : OpCode := w.extractLsb' 0 3

/-- The ignored field of a CMD word, bits 31:3 (30_encoding.md R90). -/
def ignoredField (w : Word) : BitVec 29 := w.extractLsb' 3 29

/-- Host operation codes (30_encoding.md R91). All eight codes are assigned, so no word is rejected here. -/
def decodeHost (w : Word) : Instr :=
  match (opField w).toNat with
  | 0 => .reservedOp0 (ignoredField w)
  | 1 => .wake (ignoredField w)
  | 2 => .display (ignoredField w)
  | 3 => .clear (ignoredField w)
  | 4 => .sleep (ignoredField w)
  | 5 => .teardown (ignoredField w)
  | 6 => .reservedOp6 (ignoredField w)
  | _ => .reservedOp7 (ignoredField w)

/-- Panel opcodes (30_encoding.md R94). -/
def decodePanel (b : Byte) : Except DecodeError Instr :=
  match b.toNat with
  | 0x01 => .ok .powerSettings
  | 0x06 => .ok .boosterSoftStart
  | 0x04 => .ok .powerOn
  | 0x00 => .ok .panelSettings
  | 0x30 => .ok .pll
  | 0x61 => .ok .resolution
  | 0x82 => .ok .vcomDc
  | 0x50 => .ok .vcomInterval
  | 0x20 => .ok .lutVcom
  | 0x21 => .ok .lutWw
  | 0x22 => .ok .lutBw
  | 0x23 => .ok .lutWb
  | 0x24 => .ok .lutBb
  | 0x10 => .ok .dataOld
  | 0x13 => .ok .dataNew
  | 0x12 => .ok .refresh
  | 0x02 => .ok .powerOff
  | 0x07 => .ok .deepSleep
  | _ => .error (.unknownOpcode b)

/-- The decoder of both forms. -/
def decode : Code → Except DecodeError Instr
  | .host w => .ok (decodeHost w)
  | .panel b => decodePanel b

/-- The encoder: the CMD word (30_encoding.md R91) or the opcode byte (R94) of an instruction. -/
def encode : Instr → Code
  | .reservedOp0 ignored => .host (ignored ++ 0#3)
  | .wake ignored => .host (ignored ++ 1#3)
  | .display ignored => .host (ignored ++ 2#3)
  | .clear ignored => .host (ignored ++ 3#3)
  | .sleep ignored => .host (ignored ++ 4#3)
  | .teardown ignored => .host (ignored ++ 5#3)
  | .reservedOp6 ignored => .host (ignored ++ 6#3)
  | .reservedOp7 ignored => .host (ignored ++ 7#3)
  | .powerSettings => .panel 0x01
  | .boosterSoftStart => .panel 0x06
  | .powerOn => .panel 0x04
  | .panelSettings => .panel 0x00
  | .pll => .panel 0x30
  | .resolution => .panel 0x61
  | .vcomDc => .panel 0x82
  | .vcomInterval => .panel 0x50
  | .lutVcom => .panel 0x20
  | .lutWw => .panel 0x21
  | .lutBw => .panel 0x22
  | .lutWb => .panel 0x23
  | .lutBb => .panel 0x24
  | .dataOld => .panel 0x10
  | .dataNew => .panel 0x13
  | .refresh => .panel 0x12
  | .powerOff => .panel 0x02
  | .deepSleep => .panel 0x07

/-- Whether an instruction is a panel command (format `panel_cmd`). -/
def isPanelCommand (i : Instr) : Bool :=
  match encode i with
  | .host _ => false
  | .panel _ => true

/-- The number of data bytes of an instruction (30_encoding.md R95); a host command is one word (R98). -/
def dataLength (c : Config) : Instr → Nat
  | .powerSettings => c.pPwr.length
  | .boosterSoftStart => c.pBtst.length
  | .powerOn => 0
  | .panelSettings => c.pPsr.length
  | .pll => c.pPll.length
  | .resolution => c.pTres.length
  | .vcomDc => c.pVdcs.length
  | .vcomInterval => c.pCdi.length
  | .lutVcom => 42
  | .lutWw => 42
  | .lutBw => 42
  | .lutWb => 42
  | .lutBb => 42
  | .dataOld => c.npl
  | .dataNew => c.npl
  | .refresh => 0
  | .powerOff => 0
  | .deepSleep => 1
  | .wake _ => 0
  | .display _ => 0
  | .clear _ => 0
  | .sleep _ => 0
  | .teardown _ => 0
  | .reservedOp0 _ => 0
  | .reservedOp6 _ => 0
  | .reservedOp7 _ => 0

/-- The bytes of a panel transaction as the bus carries them: command byte, then data in order (30_encoding.md R93). -/
def transactionBytes (c : Byte) (data : List Byte) : List Byte := c :: data

/-- What a model of the panel side reads from the bytes of transactions: the command, its data by the length of
30_encoding.md R95, and the bytes that follow (R98). -/
def decodeTransaction (c : Config) : List Byte → Except DecodeError (Instr × List Byte × List Byte)
  | [] => .error .noCommandByte
  | b :: rest =>
    match decodePanel b with
    | .error e => .error e
    | .ok i =>
      if rest.length < dataLength c i then .error (.tooShort i rest.length (dataLength c i))
      else .ok (i, rest.take (dataLength c i), rest.drop (dataLength c i))

/-- The instruction the decoder reads from the bits `w` of an opcode-table row of `nbits` bits: a CMD word (32) or a
command byte (8). -/
def decodeTableWord (nbits w : Nat) : Option Instr :=
  if nbits = 32 then some (decodeHost (BitVec.ofNat 32 w))
  else if nbits = 8 then (decodePanel (BitVec.ofNat 8 w)).toOption
  else none

/-- One row of the opcode table: its width, and the bits it fixes. -/
structure TableRow where
  nbits : Nat
  mask : Nat
  pattern : Nat
deriving DecidableEq, Repr

/-- The opcode-table row of an instruction (spec/opcode_table.json: match and mask). -/
def tableRow : Instr → TableRow
  | .wake _ => ⟨32, 0x7, 0x1⟩
  | .display _ => ⟨32, 0x7, 0x2⟩
  | .clear _ => ⟨32, 0x7, 0x3⟩
  | .sleep _ => ⟨32, 0x7, 0x4⟩
  | .teardown _ => ⟨32, 0x7, 0x5⟩
  | .reservedOp0 _ => ⟨32, 0x7, 0x0⟩
  | .reservedOp6 _ => ⟨32, 0x7, 0x6⟩
  | .reservedOp7 _ => ⟨32, 0x7, 0x7⟩
  | .powerSettings => ⟨8, 0xFF, 0x01⟩
  | .boosterSoftStart => ⟨8, 0xFF, 0x06⟩
  | .powerOn => ⟨8, 0xFF, 0x04⟩
  | .panelSettings => ⟨8, 0xFF, 0x00⟩
  | .pll => ⟨8, 0xFF, 0x30⟩
  | .resolution => ⟨8, 0xFF, 0x61⟩
  | .vcomDc => ⟨8, 0xFF, 0x82⟩
  | .vcomInterval => ⟨8, 0xFF, 0x50⟩
  | .lutVcom => ⟨8, 0xFF, 0x20⟩
  | .lutWw => ⟨8, 0xFF, 0x21⟩
  | .lutBw => ⟨8, 0xFF, 0x22⟩
  | .lutWb => ⟨8, 0xFF, 0x23⟩
  | .lutBb => ⟨8, 0xFF, 0x24⟩
  | .dataOld => ⟨8, 0xFF, 0x10⟩
  | .dataNew => ⟨8, 0xFF, 0x13⟩
  | .refresh => ⟨8, 0xFF, 0x12⟩
  | .powerOff => ⟨8, 0xFF, 0x02⟩
  | .deepSleep => ⟨8, 0xFF, 0x07⟩

/-- The bits of an encoded instruction as one number, bit 0 the least significant. -/
def Code.bits : Code → Nat
  | .host w => w.toNat
  | .panel b => b.toNat

/-- The width of an encoded instruction. -/
def Code.width : Code → Nat
  | .host _ => 32
  | .panel _ => 8

end Sys2Proof
end

