-- ==== Sys2Proof/Machine/State.lean ====
section
/-! DEFINITION. The state of e-paper_panel_fsm as plain data: everything 10_state.md and 20_memory.md give the block, its
event trace (00_scope.md R13), and the moves and draws of the other agents (10_state.md R20, R27), which are inputs. -/

namespace Sys2Proof.Machine

/-- The eight states of `st.state` (10_state.md R21). -/
inductive PanelState
  | uninitialized
  | awake
  | displaying
  | clearing
  | asleep
  | faulted
  | released
  | absent
deriving DecidableEq, Repr

/-- The error codes of `st.err` (60_exceptions.md R261); code 7 is never written, so it has no constructor. -/
inductive Err
  | none
  | invalidInput
  | deviceUnresponsive
  | busFailure
  | hardwareAbsent
  | invalidState
  | invalidOp
deriving DecidableEq, Repr

/-- The output lines a `LineSet` event can name (00_scope.md R10); SCLK and MOSI move inside a `Shift` only, which
records `Byte` (R11). -/
inductive Line
  | enable
  | reset
  | mode
  | indicator
deriving DecidableEq, Repr

/-- The parameter of a `Delay` (00_scope.md R11). -/
inductive Hold
  | tReset
  | tSettle
deriving DecidableEq, Repr

/-- The events of the block's trace (00_scope.md R13). -/
inductive Event
  | lineSet (line : Line) (level : Level)
  | byte (mode : Level) (b : Byte)
  | delay (t : Hold)
  | busySample (level : Logic)
  | release
  | opDone (op : OpCode) (err : Err)
  | blockReset (hwPresent : Bool)
deriving DecidableEq, Repr

/-- `st.sub`, the position inside a step (10_state.md R23): `zero` is the start of any step; `pulse k` the k-th line
write or delay of the reset pulse (42_state_machine.md R164); `encode n` the n-th output byte of the encoder;
`byte k` the byte index of a SEND (0 the command byte, `i+1` data byte `i`), among the line writes of
40_bus_transport.md R120; then the wait of 41_handshake.md R140, from `indLo` to `lastDelay`; and `abort e`, where an
error has been raised and ABORT comes next (60_exceptions.md R266). -/
inductive Micro
  | zero
  | pulse (k : Nat)
  | encode (n : Nat)
  | enableLo
  | byte (k : Nat)
  | modeHi
  | enableHi
  | busFail
  | indLo
  | settle
  | sample
  | toggle
  | pollDelay
  | timedOut
  | readyHi
  | lastDelay
  | abort (e : Err)
deriving DecidableEq, Repr

/-- The block's `st` fields: the state machine (10_state.md R21, R22), the sequencer position
`(st.op, st.step, st.sub)`, which is the program counter (R23), and the poll counter (R35). -/
structure Fsm where
  state : PanelState
  busy : Bool
  op : OpCode
  err : Err
  step : Nat
  sub : Micro
  polls : Word
deriving DecidableEq, Repr

/-- The host registers that hold a value (10_state.md R33, R34, R35). -/
structure HostRegs where
  imgDesc : Word
  imgCtl : Word
  timeout : Word
deriving DecidableEq, Repr

/-- The levels of the output lines (10_state.md R25) and of the serial pair (R26). -/
structure Lines where
  enable : Level
  reset : Level
  mode : Level
  indicator : Level
  sclk : Level
  mosi : Level
deriving DecidableEq, Repr

/-- The framer's shift register and bit counter (10_state.md R29), the output of the BUSY synchroniser (R28), and the
model's own log `wire` of the levels (SCLK, MOSI) over the last byte, oldest first (40_bus_transport.md R123). -/
structure Serial where
  shiftReg : Byte
  bitCount : BitVec 3
  busySync : Logic
  wire : List (Logic × Logic)
deriving DecidableEq, Repr

/-- A byte memory: the bytes written since block reset, as (index, byte) cells with strictly rising indices. An index
not listed holds no byte of the model's choice: what a read of it gives is a free value (log 5). -/
abbrev Memory := List Host.Cell

/-- The block's byte memories (20_memory.md R60). -/
structure Ram where
  img : Memory
  pk : Memory
  pla : Memory
  plb : Memory
deriving DecidableEq, Repr

/-- A host access, as 30_encoding.md R99 writes it, and WAITIDLE of R100. -/
inductive HostAccess
  | wr (off : Nat) (v : Word)
  | rd (off : Nat)
  | imgWr (i : Nat) (b : Byte)
  | imgRd (i : Nat)
  | waitIdle
deriving DecidableEq, Repr

/-- The move of one agent (10_state.md R20): a micro-step of the block, a host access, or a block reset with the level
`hw_present` has at it. -/
inductive Turn
  | block
  | host (a : HostAccess)
  | reset (hwPresent : Bool)
deriving DecidableEq, Repr

/-- The moves and draws of the agents outside the block: whose turn comes next (`turns`, the block's when none is
listed), the BUSY levels and `bus_err` draws to come (free values when none is listed), and the counters that make
each free value a fresh one: `draws`, and `epoch`, the number of block resets. -/
structure Env where
  turns : List Turn
  busyIn : List Logic
  busErrIn : List Bool
  draws : Nat
  epoch : Nat
deriving DecidableEq, Repr

/-- The machine. `cfg` is the build it is (00_scope.md R7: a model takes the parameters as an argument; no step
changes it); `hostData` is what the last host read returned. -/
structure State where
  cfg : Config
  st : Fsm
  regs : HostRegs
  lines : Lines
  ser : Serial
  ram : Ram
  env : Env
  hostData : Word
  trace : List Event
deriving DecidableEq, Repr

/-- Why the machine stops. -/
inductive Fault
  /-- Raised by a micro-step whose sequencer position is no position of 10_state.md R23: the step list of `st.op` has no
  step `st.step`, or `st.sub` is inside no such step. Safe: the spec gives such a position no effect, and no state that
  meets `Safety.Legal` has one (log 12). -/
  | lostPosition
deriving DecidableEq, Repr

/-- Why an instruction has no meaning. -/
inductive Refusal
  /-- Raised by `exec` for an instruction of the table that has no meaning yet; none is left. Safe. -/
  | notModelled (mnemonic : String)
deriving DecidableEq, Repr

/-- The machine right after block reset with `hw_present` = 1 (10_state.md R39, 70_reset_and_hazards.md R290, R291);
the values the spec does not state are those of log 2, 3, 5, 6, 7 and 13. -/
def State.reset : State where
  cfg := Config.hw
  st := { state := .uninitialized, busy := false, op := 0, err := .none, step := 0, sub := .zero, polls := 0 }
  regs := { imgDesc := 0, imgCtl := 0, timeout := 0 }
  lines := { enable := .hi, reset := .hi, mode := .lo, indicator := .hi, sclk := .lo, mosi := .lo }
  ser := { shiftReg := 0, bitCount := 0, busySync := .lo, wire := [] }
  ram := { img := [], pk := [], pla := [], plb := [] }
  env := { turns := [], busyIn := [], busErrIn := [], draws := 0, epoch := 0 }
  hostData := 0
  trace := [.blockReset true]

end Sys2Proof.Machine
end

