-- ==== Sys2Proof/Machine/Ops.lean ====
section
/-! DEFINITION. The named operations every meaning is written over: memory cells, events and lines (00_scope.md R10,
R11), the sequencer position (10_state.md R23), the environment's draws (R27, R28), completion, error delivery and
rejection (42_state_machine.md R166 to R168, 60_exceptions.md R266), and block reset (70_reset_and_hazards.md R290). -/

namespace Sys2Proof.Machine

/-! ### Memory -/

/-- The byte listed at an index, if one is. -/
def Memory.read? : Memory → Nat → Option Byte
  | [], _ => none
  | (a, b) :: rest, i => if a = i then some b else Memory.read? rest i

/-- Store one byte, keeping the indices strictly rising. -/
def Memory.write : Memory → Nat → Byte → Memory
  | [], i, v => [(i, v)]
  | (a, b) :: rest, i, v =>
    if i < a then (i, v) :: (a, b) :: rest
    else if i = a then (i, v) :: rest
    else (a, b) :: Memory.write rest i v

/-- Every listed index lies above `lo` and below the next one. -/
def Memory.risesFrom : Nat → Memory → Bool
  | _, [] => true
  | lo, (a, _) :: rest => decide (lo ≤ a) && Memory.risesFrom (a + 1) rest

/-- The canonical form: strictly rising indices. An unlisted index holds no byte, so no entry can equal what it reads
as, and equal memories are equal lists. -/
def Memory.wf (m : Memory) : Bool := Memory.risesFrom 0 m

/-- Every listed index is below `n`. -/
def Memory.below (n : Nat) (m : Memory) : Bool := m.all fun c => decide (c.1 < n)

/-- The byte a memory reads as at an index; where nothing has been written since block reset, a free value
(10_state.md R39, log 5). -/
def readByte (space : Space) (epoch : Nat) (m : Memory) (i : Nat) : Byte :=
  (m.read? i).getD (Config.freeByte space epoch i)

/-- The byte IMG holds at an index. -/
def imgByte (s : State) (i : Nat) : Byte := readByte .img s.env.epoch s.ram.img i

/-- The byte PK holds at an index. -/
def pkByte (s : State) (i : Nat) : Byte := readByte .pk s.env.epoch s.ram.pk i

/-- The byte PLA holds at an index. -/
def plaByte (s : State) (i : Nat) : Byte := readByte .pla s.env.epoch s.ram.pla i

/-- The byte PLB holds at an index. -/
def plbByte (s : State) (i : Nat) : Byte := readByte .plb s.env.epoch s.ram.plb i

/-! ### Events and lines -/

/-- `emit(ev)` (00_scope.md R11). -/
def emit (e : Event) (s : State) : State := { s with trace := s.trace ++ [e] }

/-- The lines with one of them at a new level. -/
def Lines.set (l : Lines) : Line → Level → Lines
  | .enable, v => { l with enable := v }
  | .reset, v => { l with reset := v }
  | .mode, v => { l with mode := v }
  | .indicator, v => { l with indicator := v }

/-- `line <- level`: drive the line and record `LineSet`, also where the line has that level already
(00_scope.md R10, 40_bus_transport.md R121). -/
def drive (ln : Line) (v : Level) (s : State) : State :=
  emit (.lineSet ln v) { s with lines := s.lines.set ln v }

/-- `Delay(t)` (00_scope.md R11): an event with no duration (41_handshake.md R144). -/
def delay (t : Hold) (s : State) : State := emit (.delay t) s

/-- `~level` (41_handshake.md R140). A line that is not driven stays so (log 16). -/
def toggled : Level → Level
  | .lo => .hi
  | .hi => .lo
  | .z => .z

/-- Every output line not driven (42_state_machine.md R174, 10_state.md R39). -/
def allReleased : Lines :=
  { enable := .z, reset := .z, mode := .z, indicator := .z, sclk := .z, mosi := .z }

/-! ### The sequencer position -/

/-- Move inside the current step (10_state.md R23). -/
def moveTo (m : Micro) (s : State) : State := { s with st := { s.st with sub := m } }

/-- The current step has completed: the next one starts (10_state.md R23). -/
def nextStep (s : State) : State := { s with st := { s.st with step := s.st.step + 1, sub := .zero } }

/-! ### Draws -/

/-- The BUSY level at a sample, and the environment after it: the next level the state lists, else a fresh free value
(41_handshake.md R141, log 3). -/
def drawBusy (s : State) : Logic × State :=
  match s.env.busyIn with
  | v :: rest => (v, { s with env := { s.env with busyIn := rest } })
  | [] => (Logic.ofBool (Config.freeBusyIsHigh s.env.draws), { s with env := { s.env with draws := s.env.draws + 1 } })

/-- The `bus_err` draw after a byte (10_state.md R27, 40_bus_transport.md R122, log 3). -/
def drawBusErr (s : State) : Bool × State :=
  match s.env.busErrIn with
  | e :: rest => (e, { s with env := { s.env with busErrIn := rest } })
  | [] => (Config.freeBusErr s.env.draws, { s with env := { s.env with draws := s.env.draws + 1 } })

/-! ### How an operation ends -/

/-- `COMPLETE(s)` (42_state_machine.md R166); the position returns to 0 with `st.busy` (10_state.md R23). -/
def complete (target : PanelState) (s : State) : State :=
  emit (.opDone s.st.op .none)
    { s with st := { s.st with state := target, err := .none, busy := false, step := 0, sub := .zero } }

/-- `raise E` inside an accepted operation (60_exceptions.md R266): the operation's procedures are left at this point,
and `ABORT(E)` is what comes next. -/
def raise (e : Err) (s : State) : State := moveTo (.abort e) s

/-- `ABORT(E)`, which takes the place of exception entry (42_state_machine.md R167, 60_exceptions.md R266): nothing is
saved for a return, and there is none (R272). -/
def abort (e : Err) (s : State) : State :=
  emit (.opDone s.st.op e)
    { s with st := { s.st with state := .faulted, err := e, busy := false, step := 0, sub := .zero } }

/-- `REJECT(op, e)` (42_state_machine.md R168), after `st.op <- op` of R160. -/
def reject (op : OpCode) (e : Err) (s : State) : State :=
  emit (.opDone op e) { s with st := { s.st with op := op, err := e } }

/-! ### Block reset -/

/-- The lines CONSTRUCT leaves (10_state.md R39). -/
def constructLines : Bool → Lines
  | true => { enable := .hi, reset := .hi, mode := .lo, indicator := .hi, sclk := .lo, mosi := .lo }
  | false => allReleased

/-- The `st` fields CONSTRUCT leaves (10_state.md R39). -/
def constructFsm : Bool → Fsm
  | true => { state := .uninitialized, busy := false, op := 0, err := .none, step := 0, sub := .zero, polls := 0 }
  | false => { state := .absent, busy := false, op := 0, err := .hardwareAbsent, step := 0, sub := .zero, polls := 0 }

/-- `BlockReset()` with the draw `p` of `hw_present` (70_reset_and_hazards.md R290, R291): a running operation is
dropped without OpDone, `BlockReset(p)` is recorded, every piece of state takes its value of 10_state.md R39, the
memories are drawn anew (R293), and the build stays (R293). What belongs to the agents outside stays too: the moves and
draws to come, and the word the host read last. -/
def blockReset (p : Bool) (s : State) : State :=
  { s with
    st := constructFsm p
    regs := { imgDesc := 0, imgCtl := 0, timeout := 0 }
    lines := constructLines p
    ser := { shiftReg := 0, bitCount := 0, busySync := .lo, wire := [] }
    ram := { img := [], pk := [], pla := [], plb := [] }
    env := { s.env with epoch := s.env.epoch + 1 }
    trace := s.trace ++ [.blockReset p] }

end Sys2Proof.Machine
end

