-- ==== Sys2Proof/Machine/Flags.lean ====
section
/-! DEFINITION. The status word and the checks: state and error codes (10_state.md R21, 60_exceptions.md R261), STATUS
(10_state.md R32), the register fields, the acceptance table (42_state_machine.md R161) and `Check` (R162). -/

namespace Sys2Proof.Machine

/-- The code of a state (10_state.md R21). -/
def PanelState.code : PanelState → BitVec 3
  | .uninitialized => 0
  | .awake => 1
  | .displaying => 2
  | .clearing => 3
  | .asleep => 4
  | .faulted => 5
  | .released => 6
  | .absent => 7

/-- The code of an error (60_exceptions.md R261). -/
def Err.code : Err → BitVec 3
  | .none => 0
  | .invalidInput => 1
  | .deviceUnresponsive => 2
  | .busFailure => 3
  | .hardwareAbsent => 4
  | .invalidState => 5
  | .invalidOp => 6

/-- STATUS: OP in bits 10:8, bit 7 zero, ERR in 6:4, BUSY in 3, STATE in 2:0, the rest zero (10_state.md R32). -/
def statusWord (f : Fsm) : Word :=
  (f.op ++ 0#1 ++ f.err.code ++ BitVec.ofBool f.busy ++ f.state.code).setWidth 32

/-- IMG_DESC.IMG_W, bits 15:0 (10_state.md R33). -/
def imgW (r : HostRegs) : Nat := (r.imgDesc.extractLsb' 0 16).toNat

/-- IMG_DESC.IMG_H, bits 31:16 (10_state.md R33). -/
def imgH (r : HostRegs) : Nat := (r.imgDesc.extractLsb' 16 16).toNat

/-- IMG_CTL.IMG_VALID, bit 0 (10_state.md R34). -/
def imgValid (r : HostRegs) : Bool := r.imgCtl.getLsbD 0

/-- TIMEOUT.BUDGET, all 32 bits (10_state.md R35). -/
def budget (r : HostRegs) : Word := r.timeout

/-- Operation codes (30_encoding.md R91). -/
abbrev opWake : OpCode := 1
/-- Operation codes (30_encoding.md R91). -/
abbrev opDisplay : OpCode := 2
/-- Operation codes (30_encoding.md R91). -/
abbrev opClear : OpCode := 3
/-- Operation codes (30_encoding.md R91). -/
abbrev opSleep : OpCode := 4
/-- Operation codes (30_encoding.md R91). -/
abbrev opTeardown : OpCode := 5

/-- Whether a host code is reserved: 0, 6 or 7 (30_encoding.md R96). -/
def reservedOp (op : OpCode) : Bool := op == 0 || op == 6 || op == 7

/-- The acceptance table (42_state_machine.md R161). Displaying and Clearing occur only while busy; nothing is accepted
there. -/
def accepts : PanelState → OpCode → Bool
  | .uninitialized, op => op == opWake || op == opTeardown
  | .awake, op => op == opDisplay || op == opClear || op == opSleep || op == opTeardown
  | .asleep, op => op == opWake || op == opTeardown
  | .faulted, op => op == opWake || op == opTeardown
  | .displaying, _ => false
  | .clearing, _ => false
  | .released, _ => false
  | .absent, _ => false

/-- The image is present and of the panel's size (42_state_machine.md R162 item 4, 60_exceptions.md R262). -/
def imageFits (s : State) : Bool :=
  imgValid s.regs && imgW s.regs == s.cfg.w && imgH s.regs == s.cfg.h

/-- `Check(op)`: the first error that applies (42_state_machine.md R162). -/
def check (s : State) (op : OpCode) : Err :=
  if s.st.state = .absent then .hardwareAbsent
  else if reservedOp op then .invalidOp
  else if accepts s.st.state op = false then .invalidState
  else if op = opDisplay ∧ imageFits s = false then .invalidInput
  else .none

end Sys2Proof.Machine
end

