-- ==== Sys2Proof/Machine/Operands.lean ====
section
/-! DEFINITION. Where the data bytes of a panel command come from (30_encoding.md R95): the payload parameters and the
byte 0xA5 (PAYROM, 20_memory.md R65), `waveform_lut_rom` (LUTROM, R64, 44_panel_commands.md R248), the planes, and the
constant WHITE (20_memory.md R60). -/

namespace Sys2Proof.Machine

/-- A data source of the framer (20_memory.md R60, R69). -/
inductive DataSource
  | none
  | pwr
  | btst
  | psr
  | pll
  | tres
  | vdcs
  | cdi
  | lut (t : Nat)
  | planeA
  | planeB
  | white
  | deepSleepByte
deriving DecidableEq, Repr

/-- Waveform table `t` (20_memory.md R64). -/
def lutTable (c : Config) : Nat → Vector Byte 42
  | 0 => c.lutVcom
  | 1 => c.lutWw
  | 2 => c.lutBw
  | 3 => c.lutWb
  | _ => c.lutBb

/-- `LUTROM[42*t + k]` (20_memory.md R64). -/
def lutRom (c : Config) (a : Nat) : Byte := (lutTable c (a / 42)).toList.getD (a % 42) 0

/-- WHITE: every byte is 0xFF (20_memory.md R60). -/
def whiteByte (_index : Nat) : Byte := 0xFF

/-- The number of data bytes a source gives (30_encoding.md R95). -/
def DataSource.length (c : Config) : DataSource → Nat
  | .none => 0
  | .pwr => c.pPwr.length
  | .btst => c.pBtst.length
  | .psr => c.pPsr.length
  | .pll => c.pPll.length
  | .tres => c.pTres.length
  | .vdcs => c.pVdcs.length
  | .cdi => c.pCdi.length
  | .lut _ => 42
  | .planeA => c.npl
  | .planeB => c.npl
  | .white => c.npl
  | .deepSleepByte => 1

/-- Data byte `k` of a source, read one byte at a time (20_memory.md R69). -/
def DataSource.byteAt (s : State) : DataSource → Nat → Byte
  | .none, _ => 0
  | .pwr, k => s.cfg.pPwr.getD k 0
  | .btst, k => s.cfg.pBtst.getD k 0
  | .psr, k => s.cfg.pPsr.getD k 0
  | .pll, k => s.cfg.pPll.getD k 0
  | .tres, k => s.cfg.pTres.getD k 0
  | .vdcs, k => s.cfg.pVdcs.getD k 0
  | .cdi, k => s.cfg.pCdi.getD k 0
  | .lut t, k => lutRom s.cfg (42 * t + k)
  | .planeA, k => plaByte s k
  | .planeB, k => plbByte s k
  | .white, k => whiteByte k
  | .deepSleepByte, _ => 0xA5

/-- The whole data of a source, in the order sent (20_memory.md R67). -/
def DataSource.bytes (s : State) (d : DataSource) : List Byte :=
  (List.range (d.length s.cfg)).map (d.byteAt s)

/-- The data of 0x10: WHITE while a CLEAR runs, else plane A (44_panel_commands.md R243, log 19). -/
def oldDataSource (s : State) : DataSource := if s.st.op = opClear then .white else .planeA

/-- The data of 0x13: WHITE while a CLEAR runs, else plane B (44_panel_commands.md R244, log 19). -/
def newDataSource (s : State) : DataSource := if s.st.op = opClear then .white else .planeB

end Sys2Proof.Machine
end

