-- ==== Sys2Proof/Machine/Poller.lean ====
section
/-! DEFINITION. `busy_line_poller`: the micro-steps of WAIT_READY (41_handshake.md R140 to R143). -/

namespace Sys2Proof.Machine

/-- One more not-ready sample, saturating at 2^32-1 (10_state.md R35). -/
def countPoll (polls : Word) : Word := if polls = 0xFFFFFFFF then polls else polls + 1

/-- The wait has used up its budget: `BUDGET != 0 and st.polls = BUDGET` (41_handshake.md R140). -/
def budgetSpent (r : HostRegs) (polls : Word) : Bool := budget r != 0 && polls == budget r

/-- `SampleBusy()` (41_handshake.md R141): draw the synchronised level and record it. 10_state.md R28 fixes what the
poller sees at a sample only: that the synchroniser's output keeps that level until the next sample is the model's choice
(log 28). -/
def sampleBusy (s : State) : State :=
  let d := drawBusy s
  emit (.busySample d.1) { d.2 with ser := { d.2.ser with busySync := d.1 } }

/-- The sample just taken reads ready (41_handshake.md R141). -/
def readsReady (s : State) : Bool := s.ser.busySync == s.cfg.busyReadyLevel

/-- What follows a sample (41_handshake.md R140): a ready one ends the poll loop; a not-ready one is counted, and
spends the budget or goes on to the toggle. -/
def afterSample (s : State) : State :=
  if readsReady s then moveTo .readyHi s
  else
    let counted := { s with st := { s.st with polls := countPoll s.st.polls } }
    if budgetSpent s.regs counted.st.polls then moveTo .timedOut counted else moveTo .toggle counted

/-- The micro-steps of WAIT_READY, each recording one event (41_handshake.md R140, 10_state.md R24); `none` outside the
wait. `st.polls <- 0`, which records nothing, is done with the settle delay (log 10). After the last delay the SEND,
and with it the step, has completed. -/
def waitStep (s : State) : Option State :=
  match s.st.sub with
  | .indLo => some (moveTo .settle (drive .indicator .lo s))
  | .settle => some (moveTo .sample (delay .tSettle { s with st := { s.st with polls := 0 } }))
  | .sample => some (afterSample (sampleBusy s))
  | .toggle => some (moveTo .pollDelay (drive .indicator (toggled s.lines.indicator) s))
  | .pollDelay => some (moveTo .sample (delay .tSettle s))
  | .timedOut => some (raise .deviceUnresponsive (drive .indicator .hi s))
  | .readyHi => some (moveTo .lastDelay (drive .indicator .hi s))
  | .lastDelay => some (nextStep (delay .tSettle s))
  | .zero => none
  | .pulse _ => none
  | .encode _ => none
  | .enableLo => none
  | .byte _ => none
  | .modeHi => none
  | .enableHi => none
  | .busFail => none
  | .abort _ => none

end Sys2Proof.Machine
end

