-- ==== Sys2Proof/Machine/Framer.lean ====
section
/-! DEFINITION. `spi_command_framer`: the bit-level waveform of a byte (40_bus_transport.md R123), `Shift` (R122, R124)
and the micro-steps of SEND (R120, R121). -/

namespace Sys2Proof.Machine

/-- One serial clock period (40_bus_transport.md R123): MOSI takes the shift register's top bit while SCLK is `Lo` (log
27), SCLK rises and falls, the register moves up by one bit and the bit counter counts. 10_state.md R29 gives the widths of
the two only: that a 0 comes in from below and that the counter counts up and wraps, so that both hold 0 after a byte,
is the model's choice (log 26). -/
def bitCycle (r : Serial) : Serial :=
  let bit := Logic.ofBool (r.shiftReg.getLsbD 7)
  { r with
    shiftReg := r.shiftReg <<< 1
    bitCount := r.bitCount + 1
    wire := r.wire ++ [(.lo, bit), (.hi, bit), (.lo, bit)] }

/-- `n` clock periods. -/
def bitCycles : Nat → Serial → Serial
  | 0, r => r
  | n + 1, r => bitCycles n (bitCycle r)

/-- The waveform of a whole byte: the register is loaded, eight periods carry it, bit 7 first, and the pair returns to
its idle levels, both `Lo` (10_state.md R26, log 8). -/
def shiftOut (b : Byte) (r : Serial) : Serial :=
  let sent := bitCycles 8 { r with shiftReg := b, bitCount := 0, wire := [] }
  { sent with wire := sent.wire ++ [(.lo, .lo)] }

/-- The last levels of a waveform, on the lines. -/
def Lines.settleSerial (l : Lines) (wire : List (Logic × Logic)) : Lines :=
  match wire.getLast? with
  | some (c, d) => { l with sclk := c.level, mosi := d.level }
  | none => l

/-- The bits the panel samples: MOSI at each leading edge of SCLK (40_bus_transport.md R123). -/
def sampledBits : List (Logic × Logic) → List Bool
  | (.lo, _) :: (.hi, d) :: rest => (d == .hi) :: sampledBits rest
  | (.lo, _) :: (.lo, d) :: rest => sampledBits ((.lo, d) :: rest)
  | (.hi, _) :: rest => sampledBits rest
  | [(.lo, _)] => []
  | [] => []

/-- `Shift(b)` up to its `bus_err` draw (40_bus_transport.md R122): record `Byte` with the level MODE has, and put the
byte's bits on the serial pair. The answer is the draw, with the state after it. -/
def shift (b : Byte) (s : State) : Bool × State :=
  let ser := shiftOut b s.ser
  drawBusErr (emit (.byte s.lines.mode b) { s with ser := ser, lines := s.lines.settleSerial ser.wire })

/-- Where a frame goes after `sent` data bytes of `total`: the next data byte, or ENABLE up
(40_bus_transport.md R120). -/
def afterData (sent total : Nat) : Micro := if sent < total then .byte (sent + 1) else .enableHi

/-- Shift byte number `k` of a frame and go on to `next`, or, on a bus failure, to the release of ENABLE
(40_bus_transport.md R124). -/
def shiftThen (b : Byte) (next : Micro) (s : State) : State :=
  let r := shift b s
  if r.1 then moveTo .busFail r.2 else moveTo next r.2

/-- The next micro-step of `SEND(c, data of src)` (40_bus_transport.md R120), from `st.sub`: the frame, then the wait,
or the abort of an error raised in either. Each records one event (10_state.md R24). -/
def send (c : Byte) (src : DataSource) (s : State) : Host.Outcome State Fault Refusal :=
  match s.st.sub with
  | .zero => .next (moveTo .enableLo (drive .mode .lo s))
  | .enableLo => .next (moveTo (.byte 0) (drive .enable .lo s))
  | .byte 0 => .next (shiftThen c .modeHi s)
  | .modeHi => .next (moveTo (afterData 0 (src.length s.cfg)) (drive .mode .hi s))
  | .byte (k + 1) =>
    if k < src.length s.cfg then
      .next (shiftThen (src.byteAt s k) (afterData (k + 1) (src.length s.cfg)) s)
    else .fault .lostPosition
  | .enableHi => .next (moveTo .indLo (drive .enable .hi s))
  | .busFail => .next (raise .busFailure (drive .enable .hi s))
  | .abort e => .next (abort e s)
  | .pulse _ => .fault .lostPosition
  | .encode _ => .fault .lostPosition
  | _ =>
    match waitStep s with
    | some t => .next t
    | none => .fault .lostPosition

end Sys2Proof.Machine
end

