-- ==== Sys2Proof/Machine/Encoder.lean ====
section
/-! DEFINITION. `grayscale_to_2plane_encoder` (43_framebuffer_encoder.md): quantisation, sampling, Pack, Split, and the
micro-steps of ENCODE, which record no event (10_state.md R24). -/

namespace Sys2Proof.Machine

/-- The four shades (00_scope.md R14), in order. -/
inductive Shade
  | black
  | dark
  | light
  | white
deriving DecidableEq, Repr

/-- The code of a shade (43_framebuffer_encoder.md R201). -/
def Shade.code : Shade → BitVec 2
  | .black => 0
  | .dark => 1
  | .light => 2
  | .white => 3

/-- The shade of a code (43_framebuffer_encoder.md R201). -/
def shadeOfCode (c : BitVec 2) : Shade :=
  match c.toNat with
  | 0 => .black
  | 1 => .dark
  | 2 => .light
  | _ => .white

/-- The plane bits (A, B) of a shade (43_framebuffer_encoder.md R204). -/
def Shade.planeBits : Shade → Bool × Bool
  | .white => (true, true)
  | .light => (true, false)
  | .dark => (false, true)
  | .black => (false, false)

/-- The shade intended by a pair of plane bits (43_framebuffer_encoder.md R210). -/
def intendedShade : Bool × Bool → Shade
  | (true, true) => .white
  | (true, false) => .light
  | (false, true) => .dark
  | (false, false) => .black

/-- `q(p) = p[7:6]` (43_framebuffer_encoder.md R201). -/
def quantise (p : Byte) : BitVec 2 := p.extractLsb' 6 2

/-- The index of IMG that fills scan position `i` (43_framebuffer_encoder.md R202); `mod` is the non-negative remainder
(00_scope.md R9). -/
def sampleIndex (c : Config) (i : Nat) : Nat :=
  match c.sampling with
  | .nominal => i
  | .legacy => (((i : Int) - 3) % (c.npix : Int)).toNat

/-- `S(i)` (43_framebuffer_encoder.md R202). -/
def samplePixel (s : State) (i : Nat) : Byte := imgByte s (sampleIndex s.cfg i)

/-- Four codes in one byte, the first in bits 7:6 (43_framebuffer_encoder.md R203). -/
def packCodes (a b c d : BitVec 2) : Byte :=
  (a.setWidth 8 <<< 6) ||| (b.setWidth 8 <<< 4) ||| (c.setWidth 8 <<< 2) ||| d.setWidth 8

/-- The Pack value of PK[b] (43_framebuffer_encoder.md R203). -/
def packValue (s : State) (b : Nat) : Byte :=
  packCodes (quantise (samplePixel s (4 * b))) (quantise (samplePixel s (4 * b + 1)))
    (quantise (samplePixel s (4 * b + 2))) (quantise (samplePixel s (4 * b + 3)))

/-- The j-th code of a packed byte, left to right: `(v >> (6 - 2*j)) & 0b11` (43_framebuffer_encoder.md R205). -/
def codeOf (v : Byte) (j : Nat) : BitVec 2 := (v >>> (6 - 2 * j)).setWidth 2

/-- Eight bits in one byte, the first in bit 7 (43_framebuffer_encoder.md R205). -/
def packBits (f : Nat → Bool) : Byte :=
  (List.range 8).foldl (fun acc k => acc ||| ((BitVec.ofBool (f k)).setWidth 8 <<< (7 - k))) 0

/-- `c_k` of output byte `o` (43_framebuffer_encoder.md R205). -/
def splitCode (s : State) (o k : Nat) : BitVec 2 := codeOf (pkByte s (2 * o + k / 4)) (k % 4)

/-- The Split value of PLA[o] (43_framebuffer_encoder.md R205). -/
def splitA (s : State) (o : Nat) : Byte := packBits fun k => (splitCode s o k).getLsbD 1

/-- The Split value of PLB[o] (43_framebuffer_encoder.md R205). -/
def splitB (s : State) (o : Nat) : Byte := packBits fun k => (splitCode s o k).getLsbD 0

/-- The output byte index inside ENCODE (10_state.md R23): 0 at its start. -/
def encodeIndex : Micro → Option Nat
  | .zero => some 0
  | .encode n => some n
  | .pulse _ => none
  | .enableLo => none
  | .byte _ => none
  | .modeHi => none
  | .enableHi => none
  | .busFail => none
  | .indLo => none
  | .settle => none
  | .sample => none
  | .toggle => none
  | .pollDelay => none
  | .timedOut => none
  | .readyHi => none
  | .lastDelay => none
  | .abort _ => none

/-- Write output byte `n` of ENCODE (43_framebuffer_encoder.md R206): the PK bytes first, then PLA and PLB together. -/
def encodeByte (n : Nat) (s : State) : State :=
  if n < s.cfg.npk then
    { s with ram := { s.ram with pk := s.ram.pk.write n (packValue s n) } }
  else
    let o := n - s.cfg.npk
    { s with ram := { s.ram with pla := s.ram.pla.write o (splitA s o), plb := s.ram.plb.write o (splitB s o) } }

/-- The next micro-step of ENCODE; after the last byte the step has completed (log 11). A position past that is inside
no ENCODE (log 12). -/
def encodeStep (s : State) : Host.Outcome State Fault Refusal :=
  match encodeIndex s.st.sub with
  | none => .fault .lostPosition
  | some n =>
    if n < s.cfg.npk + s.cfg.npl then .next (moveTo (.encode (n + 1)) (encodeByte n s))
    else if n = s.cfg.npk + s.cfg.npl then .next (nextStep s)
    else .fault .lostPosition

end Sys2Proof.Machine
end

