-- ==== Sys2Proof/Machine/HostInterface.lean ====
section
/-! DEFINITION. Host register and IMG accesses (42_state_machine.md R180, 10_state.md R30 to R35, 20_memory.md R61,
R62), and the host assembly of 30_encoding.md R99 and R100. -/

namespace Sys2Proof.Machine

/-- `HostWrite(off, v)` at every offset but CMD's, 0x00, where a write is an instruction
(42_state_machine.md R180). -/
def regWrite (off : Nat) (v : Word) (s : State) : State :=
  if s.st.busy then s
  else if off = 0x08 then { s with regs := { s.regs with imgDesc := v } }
  else if off = 0x0C then { s with regs := { s.regs with imgCtl := (v.extractLsb' 0 1).setWidth 32 } }
  else if off = 0x10 then { s with regs := { s.regs with timeout := v } }
  else s

/-- `HostRead(off)` (42_state_machine.md R180): CMD and unmapped offsets read 0. -/
def regRead (off : Nat) (s : State) : Word :=
  if off = 0x04 then statusWord s.st
  else if off = 0x08 then s.regs.imgDesc
  else if off = 0x0C then s.regs.imgCtl
  else if off = 0x10 then s.regs.timeout
  else 0

/-- `ImgWrite(i, b)` (42_state_machine.md R180). -/
def imgWrite (i : Nat) (b : Byte) (s : State) : State :=
  if s.st.busy = false ∧ i < s.cfg.npix then { s with ram := { s.ram with img := s.ram.img.write i b } } else s

/-- `ImgRead(i)` (42_state_machine.md R180). -/
def imgRead (i : Nat) (s : State) : Byte := if i < s.cfg.npix then imgByte s i else 0

/-- The host's turns after one poll of WAITIDLE (30_encoding.md R100: repeat RD STATUS until bit 3 is 0): while BUSY
reads 1 the block moves once and the host polls again (log 17). -/
def pollAgain (status : Word) (turns : List Turn) : List Turn :=
  if status.getLsbD 3 then .block :: .host .waitIdle :: turns else turns

/-- A host access that is not a write to CMD. None records an event (42_state_machine.md R180). -/
def hostAccess (a : HostAccess) (s : State) : State :=
  match a with
  | .wr off v => regWrite off v s
  | .rd off => { s with hostData := regRead off s }
  | .imgWr i b => imgWrite i b s
  | .imgRd i => { s with hostData := (imgRead i s).setWidth 32 }
  | .waitIdle =>
    { s with
      hostData := regRead 0x04 s
      env := { s.env with turns := pollAgain (regRead 0x04 s) s.env.turns } }

/-- `CALL <op>` (30_encoding.md R100). -/
def asmCall (op : OpCode) : List Turn := [.host (.wr 0x00 (op.setWidth 32)), .host .waitIdle]

/-- `SETIMG <w>, <h>` (30_encoding.md R100). -/
def asmSetImg (w h : BitVec 16) : List Turn := [.host (.wr 0x08 (h ++ w)), .host (.wr 0x0C 1)]

/-- `SETBUDGET <n>` (30_encoding.md R100). -/
def asmSetBudget (n : Word) : List Turn := [.host (.wr 0x10 n)]

end Sys2Proof.Machine
end

