-- ==== Sys2Proof/Machine/Sequencer.lean ====
section
/-! DEFINITION. The panel state machine's fixed step lists (42_state_machine.md R163, R164, R171 to R174), the fetch of
the instruction at the sequencer position (10_state.md R23), and the micro-steps that are no panel command. -/

namespace Sys2Proof.Machine

/-- One step of an operation's step list (10_state.md R23). A panel command stands as its opcode byte. -/
inductive SeqStep
  | resetPulse
  | setState (target : PanelState)
  | encode
  | send (c : Byte)
  | enableHigh
  | release
  | complete (target : PanelState)
deriving DecidableEq, Repr

/-- The steps of WAKE (42_state_machine.md R163). -/
def wakeSteps : List SeqStep :=
  [.resetPulse, .send 0x01, .send 0x06, .send 0x04, .send 0x00, .send 0x30, .send 0x61, .send 0x82, .send 0x50,
    .send 0x20, .send 0x21, .send 0x22, .send 0x23, .send 0x24, .complete .awake]

/-- The steps of DISPLAY (42_state_machine.md R171). -/
def displaySteps : List SeqStep :=
  [.setState .displaying, .encode, .send 0x10, .send 0x13, .send 0x12, .complete .awake]

/-- The steps of CLEAR (42_state_machine.md R172). -/
def clearSteps : List SeqStep :=
  [.setState .clearing, .send 0x10, .send 0x13, .send 0x12, .complete .awake]

/-- The steps of SLEEP (42_state_machine.md R173). -/
def sleepSteps : List SeqStep := [.send 0x02, .send 0x07, .complete .asleep]

/-- The steps of TEARDOWN (42_state_machine.md R174). -/
def teardownSteps : List SeqStep := [.enableHigh, .release, .complete .released]

/-- The step list of an operation code; the reserved codes have none (30_encoding.md R91). -/
def stepList (op : OpCode) : List SeqStep :=
  match op.toNat with
  | 1 => wakeSteps
  | 2 => displaySteps
  | 3 => clearSteps
  | 4 => sleepSteps
  | 5 => teardownSteps
  | _ => []

/-- Step number `n` of an operation, counting from 1 as 42_state_machine.md does. -/
def stepAt (op : OpCode) (n : Nat) : Option SeqStep :=
  match n with
  | 0 => none
  | m + 1 => (stepList op)[m]?

/-- Start an accepted operation (42_state_machine.md R160): busy, no error, at step 1. A first step that only sets
`st.state` (R171, R172) records no event and is done at once, so that STATE is right as long as BUSY reads 1
(R169, log 9). -/
def accept (op : OpCode) (s : State) : State :=
  match stepAt op 1 with
  | some (.setState target) =>
    { s with st := { s.st with op := op, busy := true, err := .none, state := target, step := 2, sub := .zero } }
  | _ => { s with st := { s.st with op := op, busy := true, err := .none, step := 1, sub := .zero } }

/-- `HostWriteCMD` for the operation code `op` (42_state_machine.md R160). -/
def hostCommand (op : OpCode) (s : State) : State :=
  if s.st.busy then s
  else if check s op = .none then accept op s
  else reject op (check s op) s

/-- The instruction a turn of the host presents: a write to CMD (10_state.md R31). -/
def fetchHost : HostAccess → Option Instr
  | .wr off v => if off = 0x00 then some (decodeHost v) else none
  | .rd _ => none
  | .imgWr _ _ => none
  | .imgRd _ => none
  | .waitIdle => none

/-- The panel command at the sequencer position: the opcode byte of the step, decoded (10_state.md R23). -/
def fetchPanel (s : State) : Option Instr :=
  if s.st.busy then
    match stepAt s.st.op s.st.step with
    | some (.send c) => (decodePanel c).toOption
    | _ => none
  else none

/-- The number of a reset pulse's micro-step (10_state.md R23). -/
def pulseIndex : Micro → Option Nat
  | .zero => some 0
  | .pulse k => some k
  | .encode _ => none
  | .enableLo => none
  | .byte _ => none
  | .modeHi => none
  | .enableHi => none
  | .busFail => none
  | .indLo => none
  | .settle => none
  | .sample => none
  | .toggle => none
  | .pollDelay => none
  | .timedOut => none
  | .readyHi => none
  | .lastDelay => none
  | .abort _ => none

/-- The next micro-step of RESET_PULSE (42_state_machine.md R164): four line writes and three delays. -/
def pulseStep (s : State) : Host.Outcome State Fault Refusal :=
  match pulseIndex s.st.sub with
  | some 0 => .next (moveTo (.pulse 1) (drive .reset .lo s))
  | some 1 => .next (moveTo (.pulse 2) (delay .tReset s))
  | some 2 => .next (moveTo (.pulse 3) (drive .reset .hi s))
  | some 3 => .next (moveTo (.pulse 4) (delay .tReset s))
  | some 4 => .next (moveTo (.pulse 5) (drive .reset .lo s))
  | some 5 => .next (moveTo (.pulse 6) (delay .tReset s))
  | some 6 => .next (nextStep (drive .reset .hi s))
  | _ => .fault .lostPosition

/-- `emit(Release)` and every output line `Z` (42_state_machine.md R174 step 2). -/
def releaseLines (s : State) : State := emit .release { s with lines := allReleased }

/-- The micro-step of a step that has only one: its position is the start of the step (10_state.md R23), and another is
inside no such step (log 12). -/
def single (t s : State) : Host.Outcome State Fault Refusal :=
  if s.st.sub = .zero then .next t else .fault .lostPosition

/-- The block's micro-step where the position is at no panel command: nothing while idle
(70_reset_and_hazards.md R292: it waits for a CMD write), else the current step's. -/
def sequencerStep (s : State) : Host.Outcome State Fault Refusal :=
  if s.st.busy = false then .next s
  else
    match stepAt s.st.op s.st.step with
    | some .resetPulse => pulseStep s
    | some (.setState target) => single (nextStep { s with st := { s.st with state := target } }) s
    | some .encode => encodeStep s
    | some .enableHigh => single (nextStep (drive .enable .hi s)) s
    | some .release => single (nextStep (releaseLines s)) s
    | some (.complete target) => single (complete target s) s
    | some (.send _) => .fault .lostPosition
    | none => .fault .lostPosition

/-- The turn to take, and the state without it: the block's where none is listed (log 2). -/
def takeTurn (s : State) : Turn × State :=
  match s.env.turns with
  | [] => (.block, s)
  | t :: rest => (t, { s with env := { s.env with turns := rest } })

/-- The step, counting from 1, at which a step list sends an opcode. -/
def sendIndex (c : Byte) : List SeqStep → Nat → Option Nat
  | [], _ => none
  | .send d :: rest, n => if d = c then some n else sendIndex c rest (n + 1)
  | .resetPulse :: rest, n => sendIndex c rest (n + 1)
  | .setState _ :: rest, n => sendIndex c rest (n + 1)
  | .encode :: rest, n => sendIndex c rest (n + 1)
  | .enableHigh :: rest, n => sendIndex c rest (n + 1)
  | .release :: rest, n => sendIndex c rest (n + 1)
  | .complete _ :: rest, n => sendIndex c rest (n + 1)

/-- The sequencer position, as (operation code, step), at which an opcode is sent (30_encoding.md R94): in WAKE, in
DISPLAY or in SLEEP. -/
def positionOf (c : Byte) : Option (OpCode × Nat) :=
  match sendIndex c wakeSteps 1 with
  | some n => some (opWake, n)
  | none =>
    match sendIndex c displaySteps 1 with
    | some n => some (opDisplay, n)
    | none =>
      match sendIndex c sleepSteps 1 with
      | some n => some (opSleep, n)
      | none => none

end Sys2Proof.Machine
end

