-- ==== Sys2Proof/Machine/HostOps.lean ====
section
/-! DEFINITION. The host operations and reserved host codes: a write to CMD (42_state_machine.md R160). Bits 31:3 are
ignored (30_encoding.md R90). An accepted operation's body is its step list (Sequencer.lean), which the block's own
micro-steps run (10_state.md R23). -/

namespace Sys2Proof.Machine

/-- WAKE (42_state_machine.md R163). -/
def execWake (_ignored : BitVec 29) (s : State) : Host.Outcome State Fault Refusal := .next (hostCommand opWake s)

/-- DISPLAY (42_state_machine.md R171). -/
def execDisplay (_ignored : BitVec 29) (s : State) : Host.Outcome State Fault Refusal :=
  .next (hostCommand opDisplay s)

/-- CLEAR (42_state_machine.md R172). -/
def execClear (_ignored : BitVec 29) (s : State) : Host.Outcome State Fault Refusal := .next (hostCommand opClear s)

/-- SLEEP (42_state_machine.md R173). -/
def execSleep (_ignored : BitVec 29) (s : State) : Host.Outcome State Fault Refusal := .next (hostCommand opSleep s)

/-- TEARDOWN (42_state_machine.md R174). -/
def execTeardown (_ignored : BitVec 29) (s : State) : Host.Outcome State Fault Refusal :=
  .next (hostCommand opTeardown s)

/-- The reserved code 0 (42_state_machine.md R176): rejected by `check`. -/
def execReservedOp0 (_ignored : BitVec 29) (s : State) : Host.Outcome State Fault Refusal := .next (hostCommand 0 s)

/-- The reserved code 6 (42_state_machine.md R176). -/
def execReservedOp6 (_ignored : BitVec 29) (s : State) : Host.Outcome State Fault Refusal := .next (hostCommand 6 s)

/-- The reserved code 7 (42_state_machine.md R176). -/
def execReservedOp7 (_ignored : BitVec 29) (s : State) : Host.Outcome State Fault Refusal := .next (hostCommand 7 s)

end Sys2Proof.Machine
end

