-- ==== Sys2Proof/Machine/PanelCommands.lean ====
section
/-! DEFINITION. The 18 panel commands of 44_panel_commands.md: each is the SEND (40_bus_transport.md R120) of its
opcode with the data of its source (30_encoding.md R95). A SEND lasts many micro-steps; the meaning is the next one at
the sequencer position, and iterating it is the whole transaction and its wait (log 1). -/

namespace Sys2Proof.Machine

/-- 0x01, power settings (44_panel_commands.md R230). -/
def execPowerSettings (s : State) : Host.Outcome State Fault Refusal := send 0x01 .pwr s

/-- 0x06, booster soft-start (44_panel_commands.md R231). -/
def execBoosterSoftStart (s : State) : Host.Outcome State Fault Refusal := send 0x06 .btst s

/-- 0x04, power-on (44_panel_commands.md R232). -/
def execPowerOn (s : State) : Host.Outcome State Fault Refusal := send 0x04 .none s

/-- 0x00, panel settings (44_panel_commands.md R233). -/
def execPanelSettings (s : State) : Host.Outcome State Fault Refusal := send 0x00 .psr s

/-- 0x30, PLL settings (44_panel_commands.md R234). -/
def execPll (s : State) : Host.Outcome State Fault Refusal := send 0x30 .pll s

/-- 0x61, resolution settings (44_panel_commands.md R235). -/
def execResolution (s : State) : Host.Outcome State Fault Refusal := send 0x61 .tres s

/-- 0x82, common-voltage DC settings (44_panel_commands.md R236). -/
def execVcomDc (s : State) : Host.Outcome State Fault Refusal := send 0x82 .vdcs s

/-- 0x50, VCOM and data-interval settings (44_panel_commands.md R237). -/
def execVcomInterval (s : State) : Host.Outcome State Fault Refusal := send 0x50 .cdi s

/-- 0x20, LUT common voltage (44_panel_commands.md R238). -/
def execLutVcom (s : State) : Host.Outcome State Fault Refusal := send 0x20 (.lut 0) s

/-- 0x21, LUT white-to-white (44_panel_commands.md R239). -/
def execLutWw (s : State) : Host.Outcome State Fault Refusal := send 0x21 (.lut 1) s

/-- 0x22, LUT black-to-white (44_panel_commands.md R240). -/
def execLutBw (s : State) : Host.Outcome State Fault Refusal := send 0x22 (.lut 2) s

/-- 0x23, LUT white-to-black (44_panel_commands.md R241). -/
def execLutWb (s : State) : Host.Outcome State Fault Refusal := send 0x23 (.lut 3) s

/-- 0x24, LUT black-to-black (44_panel_commands.md R242). -/
def execLutBb (s : State) : Host.Outcome State Fault Refusal := send 0x24 (.lut 4) s

/-- 0x10, old-data memory (44_panel_commands.md R243). -/
def execDataOld (s : State) : Host.Outcome State Fault Refusal := send 0x10 (oldDataSource s) s

/-- 0x13, new-data memory (44_panel_commands.md R244). -/
def execDataNew (s : State) : Host.Outcome State Fault Refusal := send 0x13 (newDataSource s) s

/-- 0x12, refresh (44_panel_commands.md R245). -/
def execRefresh (s : State) : Host.Outcome State Fault Refusal := send 0x12 .none s

/-- 0x02, power-off (44_panel_commands.md R246). -/
def execPowerOff (s : State) : Host.Outcome State Fault Refusal := send 0x02 .none s

/-- 0x07, deep-sleep, data byte 0xA5 (44_panel_commands.md R247). -/
def execDeepSleep (s : State) : Host.Outcome State Fault Refusal := send 0x07 .deepSleepByte s

end Sys2Proof.Machine
end

