-- ==== Sys2Proof/Machine/Dispatch.lean ====
section
/-! DEFINITION. One arm per instruction: the meaning of each row of spec/opcode_table.json. -/

namespace Sys2Proof.Machine

def exec (i : Instr) (s : State) : Host.Outcome State Fault Refusal :=
  match i with
  | .wake ignored => Sys2Proof.Machine.execWake ignored s
  | .display ignored => Sys2Proof.Machine.execDisplay ignored s
  | .clear ignored => Sys2Proof.Machine.execClear ignored s
  | .sleep ignored => Sys2Proof.Machine.execSleep ignored s
  | .teardown ignored => Sys2Proof.Machine.execTeardown ignored s
  | .reservedOp0 ignored => Sys2Proof.Machine.execReservedOp0 ignored s
  | .reservedOp6 ignored => Sys2Proof.Machine.execReservedOp6 ignored s
  | .reservedOp7 ignored => Sys2Proof.Machine.execReservedOp7 ignored s
  | .powerSettings => Sys2Proof.Machine.execPowerSettings s
  | .boosterSoftStart => Sys2Proof.Machine.execBoosterSoftStart s
  | .powerOn => Sys2Proof.Machine.execPowerOn s
  | .panelSettings => Sys2Proof.Machine.execPanelSettings s
  | .pll => Sys2Proof.Machine.execPll s
  | .resolution => Sys2Proof.Machine.execResolution s
  | .vcomDc => Sys2Proof.Machine.execVcomDc s
  | .vcomInterval => Sys2Proof.Machine.execVcomInterval s
  | .lutVcom => Sys2Proof.Machine.execLutVcom s
  | .lutWw => Sys2Proof.Machine.execLutWw s
  | .lutBw => Sys2Proof.Machine.execLutBw s
  | .lutWb => Sys2Proof.Machine.execLutWb s
  | .lutBb => Sys2Proof.Machine.execLutBb s
  | .dataOld => Sys2Proof.Machine.execDataOld s
  | .dataNew => Sys2Proof.Machine.execDataNew s
  | .refresh => Sys2Proof.Machine.execRefresh s
  | .powerOff => Sys2Proof.Machine.execPowerOff s
  | .deepSleep => Sys2Proof.Machine.execDeepSleep s

end Sys2Proof.Machine
end

