-- ==== Sys2Proof/Machine/Step.lean ====
section
/-! DEFINITION. One step: the move of the agent whose turn it is (10_state.md R20). A host write to CMD, and a block
micro-step at a panel command, run the decoded instruction; the other moves are those of HostInterface.lean,
Sequencer.lean and block reset. -/

namespace Sys2Proof.Machine

/-- One step of the machine. -/
def step (s : State) : Host.Outcome State Fault Refusal :=
  match takeTurn s with
  | (.reset p, t) => .next (blockReset p t)
  | (.host a, t) =>
    match fetchHost a with
    | some i => exec i t
    | none => .next (hostAccess a t)
  | (.block, t) =>
    match fetchPanel t with
    | some i => exec i t
    | none => sequencerStep t

/-- `s` with an instruction where the next step fetches it: a CMD word (32 bits) as the host's next move, a panel
opcode (8 bits) as the sequencer position whose step sends it (log 14). An opcode that no step list holds can be placed
nowhere (30_encoding.md R97). -/
def State.withFetchWord (s : State) (nbits w : Nat) : State :=
  if nbits = 32 then
    { s with env := { s.env with turns := .host (.wr 0x00 (BitVec.ofNat 32 w)) :: s.env.turns } }
  else if nbits = 8 then
    match positionOf (BitVec.ofNat 8 w) with
    | some (op, n) =>
      { s with
        st := { s.st with busy := true, op := op, step := n, sub := .zero }
        env := { s.env with turns := .block :: s.env.turns } }
    | none => s
  else s

end Sys2Proof.Machine
end

