-- ==== Sys2Proof/Machine/Trace.lean ====
section
/-! DEFINITION. The transaction log derived from the event trace (00_scope.md R13, 30_encoding.md R101). -/

namespace Sys2Proof.Machine

/-- One `Send(cmd, data)` record (00_scope.md R13). -/
structure Transaction where
  cmd : Byte
  data : List Byte
deriving DecidableEq, Repr

/-- Where the cutting of a trace stands: the level ENABLE has, and the record that is open. -/
structure Cut where
  enable : Level
  current : Option Transaction
deriving DecidableEq, Repr

/-- One event cut: the record it closes, if it closes one, and where the cutting stands after it (00_scope.md R13). A
record opens at `Byte(Lo, cmd)` while ENABLE is `Lo`, takes the `Byte(Hi, d)` that follow, and closes at
`LineSet(ENABLE, Hi)`. A release of the lines, a block reset or a new command byte closes it too (log 18). -/
def Cut.next (c : Cut) : Event → Option Transaction × Cut
  | .lineSet .enable .hi => (c.current, { enable := .hi, current := none })
  | .lineSet .enable .lo => (none, { c with enable := .lo })
  | .lineSet .enable .z => (none, { c with enable := .z })
  | .lineSet .reset _ => (none, c)
  | .lineSet .mode _ => (none, c)
  | .lineSet .indicator _ => (none, c)
  | .byte .lo b =>
    if c.enable = .lo then (c.current, { c with current := some { cmd := b, data := [] } }) else (none, c)
  | .byte .hi d => (none, { c with current := c.current.map fun t => { t with data := t.data ++ [d] } })
  | .byte .z _ => (none, c)
  | .delay _ => (none, c)
  | .busySample _ => (none, c)
  | .release => (c.current, { enable := .z, current := none })
  | .opDone _ _ => (none, c)
  | .blockReset p => (c.current, { enable := (constructLines p).enable, current := none })

/-- Cut a trace into records, from the level ENABLE has and the record that is open. The trace's end closes an open
record (log 18). -/
def logFrom (enable : Level) (current : Option Transaction) : List Event → List Transaction
  | [] => current.toList
  | e :: rest =>
    let r := Cut.next { enable := enable, current := current } e
    r.1.toList ++ logFrom r.2.enable r.2.current rest

/-- The transaction log of a whole trace; no line is driven before the first block reset. -/
def transactionLog (trace : List Event) : List Transaction := logFrom .z none trace

end Sys2Proof.Machine
end

