-- ==== Sys2Proof/Machine/PanelView.lean ====
section
/-! DEFINITION. What the panel contract of 60_exceptions.md R278 says of the attached panel, read off the event trace:
the planes its two memories have received and the planes on its surface. The panel is outside the block, which holds no
copy of its state (10_state.md R38), so none of this is in `State`, and no step reads it (log 20). -/

namespace Sys2Proof.Machine

/-- The panel as far as the contract fixes it; `none` where its contents are indeterminate. -/
structure PanelView where
  /-- The old-data memory, written by 0x10. -/
  oldData : Option (List Byte)
  /-- The new-data memory, written by 0x13. -/
  newData : Option (List Byte)
  /-- The planes (A, B) of a refresh whose operation has not completed yet. -/
  refreshing : Option (List Byte × List Byte)
  /-- The planes the visible surface shows the shades of. -/
  surface : Option (List Byte × List Byte)
deriving DecidableEq, Repr

/-- A panel of which nothing is known (10_state.md R39). -/
def PanelView.unknown : PanelView := { oldData := none, newData := none, refreshing := none, surface := none }

/-- A plane memory takes `NPL` bytes in order; fewer or more leave it indeterminate (60_exceptions.md R270, R278). -/
def wholePlane (c : Config) (data : List Byte) : Option (List Byte) := if data.length = c.npl then some data else none

/-- The most recently transmitted plane data, where both planes are known (60_exceptions.md R278 item 4). -/
def PanelView.planes (v : PanelView) : Option (List Byte × List Byte) :=
  match v.oldData, v.newData with
  | some a, some b => some (a, b)
  | some _, none => none
  | none, some _ => none
  | none, none => none

/-- A command byte has reached the panel, and its frame is under way. The spec does not say when the bytes of a plane
land, nor when a refresh starts: what the frame writes is not known from here on (log 20). -/
def PanelView.begin (v : PanelView) (cmd : Byte) : PanelView :=
  if cmd = 0x10 then { v with oldData := none }
  else if cmd = 0x13 then { v with newData := none }
  else if cmd = 0x12 then { v with surface := none }
  else v

/-- The panel consumes a transaction (60_exceptions.md R278 items 1 and 4). A refresh begins to apply the planes, and the
spec does not say when it is done: from here to the end of its operation the surface is not known. After power-off or
deep sleep nothing sent before is assumed to survive (R279). After a command that is none of the 18, which the block
never sends (30_encoding.md R97), nothing is known. All three are the model's reading (log 20). -/
def PanelView.receive (c : Config) (v : PanelView) (t : Transaction) : PanelView :=
  if t.cmd = 0x10 then { v with oldData := wholePlane c t.data }
  else if t.cmd = 0x13 then { v with newData := wholePlane c t.data }
  else if t.cmd = 0x12 then { v with refreshing := v.planes, surface := none }
  else if t.cmd = 0x02 then PanelView.unknown
  else if t.cmd = 0x07 then PanelView.unknown
  else
    match decodePanel t.cmd with
    | .ok _ => v
    | .error _ => PanelView.unknown

/-- A DISPLAY or CLEAR has completed: its planes are on the surface (60_exceptions.md R270: a call "fully completes its
two-plane transmission and refresh"). -/
def PanelView.complete (v : PanelView) : PanelView := { v with refreshing := none, surface := v.refreshing }

/-- What an event itself says of the panel: a command byte begins its frame; a completed DISPLAY or CLEAR has refreshed it; an abort
(42_state_machine.md R167) and a block reset (70_reset_and_hazards.md R290) leave it indeterminate; a RESET pulse puts
it in its power-on condition (42_state_machine.md R164), which the spec does not describe (log 20). -/
def PanelView.observe (v : PanelView) : Event → PanelView
  | .opDone op .none => if op = opDisplay ∨ op = opClear then v.complete else v
  | .opDone _ .busFailure => PanelView.unknown
  | .opDone _ .deviceUnresponsive => PanelView.unknown
  | .opDone _ .invalidInput => v
  | .opDone _ .hardwareAbsent => v
  | .opDone _ .invalidState => v
  | .opDone _ .invalidOp => v
  | .blockReset _ => PanelView.unknown
  | .lineSet .reset .lo => PanelView.unknown
  | .lineSet .reset .hi => v
  | .lineSet .reset .z => v
  | .lineSet .enable _ => v
  | .lineSet .mode _ => v
  | .lineSet .indicator _ => v
  | .byte .lo cmd => v.begin cmd
  | .byte .hi _ => v
  | .byte .z _ => v
  | .delay _ => v
  | .busySample _ => v
  | .release => v

/-- An observer of the trace: where its cutting into transactions stands, and the panel so far. -/
structure PanelWatch where
  cut : Cut
  panel : PanelView
deriving DecidableEq, Repr

/-- No line is driven, and nothing is known of the panel. -/
def PanelWatch.start : PanelWatch := { cut := { enable := .z, current := none }, panel := PanelView.unknown }

/-- One event seen: the transaction it closes reaches the panel, then the event itself. -/
def PanelWatch.see (c : Config) (w : PanelWatch) (e : Event) : PanelWatch :=
  let r := w.cut.next e
  { cut := r.2, panel := (r.1.elim w.panel (w.panel.receive c)).observe e }

/-- A list of events seen. -/
def PanelWatch.seeAll (c : Config) (w : PanelWatch) (evs : List Event) : PanelWatch := evs.foldl (PanelWatch.see c) w

/-- The panel after a whole trace. -/
def panelView (c : Config) (trace : List Event) : PanelView := (PanelWatch.start.seeAll c trace).panel

/-- Bit of scan position `i` in a plane: bit `7 - k` of byte `o`, with `i = 8*o + k` (20_memory.md R68). -/
def planeBit (plane : List Byte) (i : Nat) : Bool := (plane.getD (i / 8) 0).getLsbD (7 - i % 8)

/-- The intended visible shade of scan position `i` (43_framebuffer_encoder.md R210, 60_exceptions.md R278 item 5). -/
def intendedPixel (planes : List Byte × List Byte) (i : Nat) : Shade :=
  intendedShade (planeBit planes.1 i, planeBit planes.2 i)

end Sys2Proof.Machine
end

