-- ==== Sys2Proof/WellFormed.lean ====
section
/-! DEFINITION. What is checked of terms. An instruction's fields are typed by width, so every term of `Instr` is
well formed; the checks are on a build's parameters (00_scope.md R7, 43_framebuffer_encoder.md R200) and on a panel
transaction (30_encoding.md R95). -/

namespace Sys2Proof

/-- A row is scanned in groups of 4 columns: `W mod 4 = 0` (00_scope.md R7). -/
def Config.rowsInGroups (c : Config) : Bool := c.w % 4 == 0

/-- Split takes PK two bytes at a time: `(W*H) mod 8 = 0` (00_scope.md R7). -/
def Config.planesWhole (c : Config) : Bool := (c.w * c.h) % 8 == 0

/-- The constraints on `W` and `H` of 00_scope.md R7. -/
def Config.wellFormed (c : Config) : Bool := c.rowsInGroups && c.planesWhole

/-- A panel transaction carries a panel command and as many data bytes as 30_encoding.md R95 fixes for it. -/
def transactionWellFormed (c : Config) (i : Instr) (data : List Byte) : Bool :=
  isPanelCommand i && (data.length == dataLength c i)

end Sys2Proof
end

