-- ==== Sys2Proof/Safety.lean ====
section
/-! DEFINITION. The terms claims use: the legal states (what every state a run reaches satisfies), a run of one
instruction, and a safe run. -/

namespace Sys2Proof.Safety

open Sys2Proof.Machine

/-- A position inside WAIT_READY (41_handshake.md R140). -/
def inWait : Micro → Bool
  | .indLo => true
  | .settle => true
  | .sample => true
  | .toggle => true
  | .pollDelay => true
  | .timedOut => true
  | .readyHi => true
  | .lastDelay => true
  | .zero => false
  | .pulse _ => false
  | .encode _ => false
  | .enableLo => false
  | .byte _ => false
  | .modeHi => false
  | .enableHi => false
  | .busFail => false
  | .abort _ => false

/-- A position inside a SEND of `len` data bytes (10_state.md R23): the frame, the wait, or the abort of one of the two
errors it raises. -/
def inSend (len : Nat) : Micro → Bool
  | .zero => true
  | .enableLo => true
  | .byte k => decide (k ≤ len)
  | .modeHi => true
  | .enableHi => true
  | .busFail => true
  | .indLo => true
  | .settle => true
  | .sample => true
  | .toggle => true
  | .pollDelay => true
  | .timedOut => true
  | .readyHi => true
  | .lastDelay => true
  | .abort .busFailure => true
  | .abort .deviceUnresponsive => true
  | .abort .none => false
  | .abort .invalidInput => false
  | .abort .hardwareAbsent => false
  | .abort .invalidState => false
  | .abort .invalidOp => false
  | .pulse _ => false
  | .encode _ => false

/-- A position inside the given step (10_state.md R23). Step 1 of DISPLAY and of CLEAR has none: it is done at acceptance
(log 9). -/
def positionIn (c : Config) : SeqStep → Micro → Bool
  | .resetPulse, m => m == .zero || (pulseIndex m).any fun k => decide (1 ≤ k) && decide (k ≤ 6)
  | .setState _, _ => false
  | .encode, m => (encodeIndex m).any fun n => decide (n ≤ c.npk + c.npl)
  | .send b, m =>
    match decodePanel b with
    | .ok i => inSend (dataLength c i) m
    | .error _ => false
  | .enableHigh, m => m == .zero
  | .release, m => m == .zero
  | .complete _, m => m == .zero

/-- The states an operation can be running in (42_state_machine.md R169, R161). -/
def runsIn : OpCode → PanelState → Bool
  | op, .uninitialized => op == opWake || op == opTeardown
  | op, .awake => op == opSleep || op == opTeardown
  | op, .displaying => op == opDisplay
  | op, .clearing => op == opClear
  | op, .asleep => op == opWake || op == opTeardown
  | op, .faulted => op == opWake || op == opTeardown
  | _, .released => false
  | _, .absent => false

/-- Whether the lines have been released, or never driven: in Released and Absent, and in a TEARDOWN past its step 2
(42_state_machine.md R174, R175, R177). -/
def linesReleased (f : Fsm) : Bool :=
  f.state == .released || f.state == .absent || (f.busy && f.op == opTeardown && f.step == 3)

/-- The level ENABLE has at a position: `Lo` inside a frame only (40_bus_transport.md R120, R124). -/
def enableLevel : Micro → Level
  | .byte _ => .lo
  | .modeHi => .lo
  | .enableHi => .lo
  | .busFail => .lo
  | .zero => .hi
  | .pulse _ => .hi
  | .encode _ => .hi
  | .enableLo => .hi
  | .indLo => .hi
  | .settle => .hi
  | .sample => .hi
  | .toggle => .hi
  | .pollDelay => .hi
  | .timedOut => .hi
  | .readyHi => .hi
  | .lastDelay => .hi
  | .abort _ => .hi

/-- The level RESET has at a position: `Lo` in the two low phases of the reset pulse only (42_state_machine.md R164). -/
def resetLevel : Micro → Level
  | .pulse 1 => .lo
  | .pulse 2 => .lo
  | .pulse 5 => .lo
  | .pulse 6 => .lo
  | _ => .hi

/-- Whether MODE may have a level at a position (40_bus_transport.md R121): `Lo` up to the command byte, `Hi` from
`MODE <- Hi` to the end of the wait, either where no rule fixes it, and never `Z`. -/
def modeLegal : Micro → Level → Bool
  | .enableLo, l => l == .lo
  | .byte 0, l => l == .lo
  | .modeHi, l => l == .lo
  | .byte (_ + 1), l => l == .hi
  | .enableHi, l => l == .hi
  | .indLo, l => l == .hi
  | .settle, l => l == .hi
  | .sample, l => l == .hi
  | .toggle, l => l == .hi
  | .pollDelay, l => l == .hi
  | .timedOut, l => l == .hi
  | .readyHi, l => l == .hi
  | .lastDelay, l => l == .hi
  | _, l => l != .z

/-- Whether INDICATOR may have a level at a position (41_handshake.md R143): `Hi` outside a wait, `Lo` during the
settle delay, never `Z`. -/
def indicatorLegal : Micro → Level → Bool
  | .settle, l => l == .lo
  | .sample, l => l != .z
  | .toggle, l => l != .z
  | .pollDelay, l => l != .z
  | .timedOut, l => l != .z
  | .readyHi, l => l != .z
  | _, l => l == .hi

/-- The levels of the lines at a position, where they are driven. That MOSI is `Lo` between the bytes of a frame too is
the model's choice (log 8); 10_state.md R26 says so of an idle pair. -/
def linesLegal (m : Micro) (l : Lines) : Bool :=
  l.enable == enableLevel m && l.reset == resetLevel m && modeLegal m l.mode && indicatorLegal m l.indicator
    && l.sclk == .lo && l.mosi == .lo

/-- The poll counter in a wait never exceeds the budget, and reaches it only where the wait fails
(10_state.md R35, 41_handshake.md R142). -/
def pollsLegal (r : HostRegs) (m : Micro) (polls : Word) : Bool :=
  match m with
  | .sample => budget r == 0 || polls < budget r
  | .toggle => budget r == 0 || polls < budget r
  | .pollDelay => budget r == 0 || polls < budget r
  | .timedOut => budget r != 0 && polls == budget r
  | _ => true

/-- A byte sent with MODE `Lo` is one of the 18 opcodes (30_encoding.md R94). -/
def opcodeEvent : Event → Bool
  | .byte .lo b => (decodePanel b).toOption.isSome
  | _ => true

/-- What every state of a run satisfies. -/
structure Legal (s : State) : Prop where
  /-- Idle: the position is 0 (10_state.md R23), and no operation's transient state shows (R21). -/
  idle : s.st.busy = false → s.st.step = 0 ∧ s.st.sub = .zero ∧ s.st.state ≠ .displaying ∧ s.st.state ≠ .clearing
  /-- Busy: ERR reads 0 and STATE is that of the running operation (42_state_machine.md R169). -/
  running : s.st.busy = true → s.st.err = .none ∧ runsIn s.st.op s.st.state = true
  /-- Busy: the position is inside a step of the operation's list (10_state.md R23). -/
  position : s.st.busy = true →
    ∃ x, stepAt s.st.op s.st.step = some x ∧ positionIn s.cfg x s.st.sub = true
  /-- Absent goes with HardwareAbsent (60_exceptions.md R265). -/
  absentErr : s.st.state = .absent → s.st.err = .hardwareAbsent
  /-- The lines are not driven in Released and Absent (42_state_machine.md R175, R177), and have the position's levels
  elsewhere. -/
  released : linesReleased s.st = true → s.lines = allReleased
  /-- The levels of the driven lines. -/
  driven : linesReleased s.st = false → linesLegal s.st.sub s.lines = true
  /-- The poll counter within its budget. -/
  polls : s.st.busy = true → pollsLegal s.regs s.st.sub s.st.polls = true
  /-- IMG_CTL bits 31:1 read as 0 (10_state.md R34). -/
  imgCtl : s.regs.imgCtl.toNat ≤ 1
  /-- IMG is in its canonical form and within its range (20_memory.md R61). -/
  img : s.ram.img.wf = true ∧ s.ram.img.below s.cfg.npix = true
  /-- PK likewise (20_memory.md R60). -/
  pk : s.ram.pk.wf = true ∧ s.ram.pk.below s.cfg.npk = true
  /-- PLA likewise (20_memory.md R60). -/
  pla : s.ram.pla.wf = true ∧ s.ram.pla.below s.cfg.npl = true
  /-- PLB likewise (20_memory.md R60). -/
  plb : s.ram.plb.wf = true ∧ s.ram.plb.below s.cfg.npl = true
  /-- No other command byte was ever sent (30_encoding.md R94). -/
  opcodes : ∀ e ∈ s.trace, opcodeEvent e = true

/-- `n` consecutive micro-steps of one instruction, stopping at the first fault or refusal: how a SEND runs to its end
(log 1). -/
def execTimes (i : Instr) : Nat → State → Host.Outcome State Fault Refusal
  | 0, s => .next s
  | n + 1, s =>
    match exec i s with
    | .next t => execTimes i n t
    | .fault r => .fault r
    | .refused r => .refused r

/-- `n` consecutive steps of the machine, stopping at the first fault or refusal (as `Host.Core.run`). -/
def steps : Nat → State → Host.Outcome State Fault Refusal
  | 0, s => .next s
  | n + 1, s =>
    match step s with
    | .next t => steps n t
    | .fault r => .fault r
    | .refused r => .refused r

/-- A safe run of `n` steps: no fault and no refusal on the way. -/
def safeRun (n : Nat) (s : State) : Prop := ∃ t, steps n s = .next t

end Sys2Proof.Safety
end

