-- ==== Sys2Proof/Certificates/Slice0/Obligations.lean ====
section
/-! DEFINITION. The statements for the provers. `Expect` holds what the spec's rules expect to see (events and data of
a transaction, of a wait, of an operation), written from the rules and not from the machine's step functions. -/

namespace Sys2Proof.Expect

open Sys2Proof.Machine

/-- The events of one SEND's frame (40_bus_transport.md R120). -/
def frame (c : Byte) (d : List Byte) : List Event :=
  [.lineSet .mode .lo, .lineSet .enable .lo, .byte .lo c, .lineSet .mode .hi] ++ d.map (.byte .hi ·)
    ++ [.lineSet .enable .hi]

/-- The events of a frame up to its byte number `k`, 0 being the command byte (40_bus_transport.md R120, R124). -/
def frameUpTo (c : Byte) (d : List Byte) : Nat → List Event
  | 0 => [.lineSet .mode .lo, .lineSet .enable .lo, .byte .lo c]
  | k + 1 =>
    [.lineSet .mode .lo, .lineSet .enable .lo, .byte .lo c, .lineSet .mode .hi]
      ++ (d.take (k + 1)).map (.byte .hi ·)

/-- The BUSY level that means not ready (41_handshake.md R141). -/
def notReady (c : Config) : Logic :=
  match c.busyReadyLevel with
  | .lo => .hi
  | .hi => .lo

/-- INDICATOR after the toggle of the `j`-th not-ready sample (41_handshake.md R143). -/
def blink (j : Nat) : Level := if j % 2 = 1 then .hi else .lo

/-- The events of the first `m` turns of the poll loop, all not ready (41_handshake.md R140). -/
def polls (c : Config) : Nat → List Event
  | 0 => []
  | m + 1 => polls c m ++ [.busySample (notReady c), .lineSet .indicator (blink (m + 1)), .delay .tSettle]

/-- The events of a wait that sees `m` not-ready samples and then a ready one (41_handshake.md R140). -/
def wait (c : Config) (m : Nat) : List Event :=
  [.lineSet .indicator .lo, .delay .tSettle] ++ polls c m
    ++ [.busySample c.busyReadyLevel, .lineSet .indicator .hi, .delay .tSettle]

/-- The events of a wait that fails at its `n`-th not-ready sample, up to the raise (41_handshake.md R142). -/
def failedWait (c : Config) (n : Nat) : List Event :=
  [.lineSet .indicator .lo, .delay .tSettle] ++ polls c (n - 1)
    ++ [.busySample (notReady c), .lineSet .indicator .hi]

/-- The poll counter after `m` not-ready samples: 32 bits, saturating (10_state.md R35). -/
def counted (m : Nat) : Word := BitVec.ofNat 32 (min m 0xFFFFFFFF)

/-- A wait may see `m` not-ready samples without failing (41_handshake.md R142). -/
def allows (timeout : Word) (m : Nat) : Prop := timeout = 0 ∨ m < timeout.toNat

/-- The BUSY levels of such a wait, as the panel gives them. -/
def samples (c : Config) (m : Nat) : List Logic := List.replicate m (notReady c) ++ [c.busyReadyLevel]

/-- The data of 0x10: plane A in a DISPLAY, `NPL` bytes of 0xFF in a CLEAR (44_panel_commands.md R243). -/
def oldData (s : State) : List Byte :=
  if s.st.op = 3 then List.replicate s.cfg.npl 0xFF else (List.range s.cfg.npl).map (plaByte s)

/-- The data of 0x13: plane B in a DISPLAY, `NPL` bytes of 0xFF in a CLEAR (44_panel_commands.md R244). -/
def newData (s : State) : List Byte :=
  if s.st.op = 3 then List.replicate s.cfg.npl 0xFF else (List.range s.cfg.npl).map (plbByte s)

/-- The panel commands, each with its opcode and its data (30_encoding.md R94, R95; 44_panel_commands.md). -/
def sends (s : State) : List (Instr × Byte × List Byte) :=
  [(.powerSettings, 0x01, s.cfg.pPwr), (.boosterSoftStart, 0x06, s.cfg.pBtst), (.powerOn, 0x04, []),
    (.panelSettings, 0x00, s.cfg.pPsr), (.pll, 0x30, s.cfg.pPll), (.resolution, 0x61, s.cfg.pTres),
    (.vcomDc, 0x82, s.cfg.pVdcs), (.vcomInterval, 0x50, s.cfg.pCdi), (.lutVcom, 0x20, s.cfg.lutVcom.toList),
    (.lutWw, 0x21, s.cfg.lutWw.toList), (.lutBw, 0x22, s.cfg.lutBw.toList), (.lutWb, 0x23, s.cfg.lutWb.toList),
    (.lutBb, 0x24, s.cfg.lutBb.toList), (.dataOld, 0x10, oldData s), (.dataNew, 0x13, newData s),
    (.refresh, 0x12, []), (.powerOff, 0x02, []), (.deepSleep, 0x07, [0xA5])]

/-- The host operations and reserved codes, each with its code (30_encoding.md R91), for any ignored bits. -/
def hostCodes (g : BitVec 29) : List (Instr × OpCode) :=
  [(.reservedOp0 g, 0), (.wake g, 1), (.display g, 2), (.clear g, 3), (.sleep g, 4), (.teardown g, 5),
    (.reservedOp6 g, 6), (.reservedOp7 g, 7)]

/-- The acceptance table (42_state_machine.md R161), row by row. -/
def accepted : PanelState → List OpCode
  | .uninitialized => [1, 5]
  | .awake => [2, 3, 4, 5]
  | .displaying => []
  | .clearing => []
  | .asleep => [1, 5]
  | .faulted => [1, 5]
  | .released => []
  | .absent => []

/-- The first error that applies, in the order of 42_state_machine.md R162. -/
def firstError (s : State) (op : OpCode) : Err :=
  if s.st.state = .absent then .hardwareAbsent
  else if op ∈ [(0 : OpCode), 6, 7] then .invalidOp
  else if op ∉ accepted s.st.state then .invalidState
  else if op = 2 ∧ ¬ (s.regs.imgCtl.getLsbD 0 = true ∧ (s.regs.imgDesc.extractLsb' 0 16).toNat = s.cfg.w ∧
      (s.regs.imgDesc.extractLsb' 16 16).toNat = s.cfg.h) then .invalidInput
  else .none

/-- The transactions of WAKE, in order (42_state_machine.md R163). -/
def wakeSends (c : Config) : List (Byte × List Byte) :=
  [(0x01, c.pPwr), (0x06, c.pBtst), (0x04, []), (0x00, c.pPsr), (0x30, c.pPll), (0x61, c.pTres), (0x82, c.pVdcs),
    (0x50, c.pCdi), (0x20, c.lutVcom.toList), (0x21, c.lutWw.toList), (0x22, c.lutBw.toList),
    (0x23, c.lutWb.toList), (0x24, c.lutBb.toList)]

/-- The events of the reset pulse (42_state_machine.md R164). -/
def pulse : List Event :=
  [.lineSet .reset .lo, .delay .tReset, .lineSet .reset .hi, .delay .tReset, .lineSet .reset .lo, .delay .tReset,
    .lineSet .reset .hi]

/-- The events of a list of transactions whose waits see the numbers `ms` of not-ready samples. -/
def transactions (c : Config) : List (Byte × List Byte) → List Nat → List Event
  | (op, d) :: rest, m :: ms => frame op d ++ wait c m ++ transactions c rest ms
  | _, _ => []

/-- The BUSY levels of those waits. -/
def allSamples (c : Config) : List Nat → List Logic
  | [] => []
  | m :: ms => samples c m ++ allSamples c ms

/-- The number of bytes of a list of transactions. -/
def byteCount : List (Byte × List Byte) → Nat
  | [] => 0
  | (_, d) :: rest => (d.length + 1) + byteCount rest

/-- The records of the transaction log (00_scope.md R13). -/
def records (ts : List (Byte × List Byte)) : List Transaction := ts.map fun t => { cmd := t.1, data := t.2 }

/-- Eight bits as a byte, the first in bit 7 (20_memory.md R68). -/
def scanByte (f : Nat → Bool) : Byte :=
  (BitVec.ofBool (f 0) ++ BitVec.ofBool (f 1) ++ BitVec.ofBool (f 2) ++ BitVec.ofBool (f 3)
    ++ BitVec.ofBool (f 4) ++ BitVec.ofBool (f 5) ++ BitVec.ofBool (f 6) ++ BitVec.ofBool (f 7) : BitVec 8)

/-- A plane that carries bit `bit` of each sampled pixel, in scan order (43_framebuffer_encoder.md R207). -/
def plane (s : State) (bit : Nat) : List Byte :=
  (List.range s.cfg.npl).map fun o => scanByte fun k => (samplePixel s (8 * o + k)).getLsbD bit

/-- The lines as a SEND and its wait leave them. -/
def afterSend (l : Lines) : Lines :=
  { l with enable := .hi, mode := .hi, indicator := .hi, sclk := .lo, mosi := .lo }

/-- The events of a CLEAR, but for its OpDone (42_state_machine.md R172). -/
def clearEvents (c : Config) (ms : List Nat) : List Event :=
  transactions c [(0x10, List.replicate c.npl 0xFF), (0x13, List.replicate c.npl 0xFF), (0x12, [])] ms

/-- The events of a DISPLAY of the image of `s`, but for its OpDone (42_state_machine.md R171). -/
def displayEvents (s : State) (ms : List Nat) : List Event :=
  transactions s.cfg [(0x10, plane s 7), (0x13, plane s 6), (0x12, [])] ms

/-- The `st` fields of a block that has completed `op` in state `p`. -/
def completed (f : Fsm) (op : OpCode) (p : PanelState) (polls : Word) : Fsm :=
  { f with state := p, busy := false, op := op, err := .none, step := 0, sub := .zero, polls := polls }

end Sys2Proof.Expect

open Sys2Proof Sys2Proof.Machine Sys2Proof.Safety

/-! ### Encoding -/

/-- 30_encoding.md R91, R93, R94, R95, R98: decoding gives back every encoded instruction with all its ignored bits,
every CMD word and every opcode byte is re-encoded as it was, and a transaction of the length of R95 is read back whole
from the bytes of a bus. -/
def Obligations.DecodeAndEncodeAgree : Prop :=
  (∀ i, decode (encode i) = .ok i) ∧
  (∀ w, encode (decodeHost w) = .host w) ∧
  (∀ b i, decodePanel b = .ok i → encode i = .panel b) ∧
  (∀ (c : Config) (i : Instr) (b : Byte) (data rest : List Byte),
    encode i = .panel b → transactionWellFormed c i data = true →
    decodeTransaction c (transactionBytes b data ++ rest) = .ok (i, data, rest))

/-- 30_encoding.md R94, R97: the bytes that decode to a panel command are the 18 opcodes and no other; every other byte
is rejected by name. -/
def Obligations.PanelOpcodesAreTheEighteen : Prop :=
  ∀ b : Byte,
    (b ∈ [0x01#8, 0x06#8, 0x04#8, 0x00#8, 0x30#8, 0x61#8, 0x82#8, 0x50#8, 0x20#8, 0x21#8, 0x22#8, 0x23#8, 0x24#8,
        0x10#8, 0x13#8, 0x12#8, 0x02#8, 0x07#8] → ∃ i, decodePanel b = .ok i) ∧
    (b ∉ [0x01#8, 0x06#8, 0x04#8, 0x00#8, 0x30#8, 0x61#8, 0x82#8, 0x50#8, 0x20#8, 0x21#8, 0x22#8, 0x23#8, 0x24#8,
        0x10#8, 0x13#8, 0x12#8, 0x02#8, 0x07#8] → decodePanel b = .error (.unknownOpcode b))

/-- Words written out from 30_encoding.md R91 and R94 decode to the instructions they stand for. -/
def Obligations.TableWordsDecode : Prop :=
  decodeHost 0x00000001 = .wake 0 ∧ decodeHost 0xFFFFFFF9 = .wake 0x1FFFFFFF ∧ decodeHost 0x00000002 = .display 0 ∧
  decodeHost 0x0000000B = .clear 1 ∧ decodeHost 0x00000004 = .sleep 0 ∧ decodeHost 0x00000005 = .teardown 0 ∧
  decodeHost 0x00000008 = .reservedOp0 1 ∧ decodeHost 0x00000006 = .reservedOp6 0 ∧
  decodeHost 0x00000007 = .reservedOp7 0 ∧ decodePanel 0b00000000 = .ok .panelSettings ∧
  decodePanel 0b01100001 = .ok .resolution ∧ decodePanel 0b10000010 = .ok .vcomDc ∧
  decodePanel 0b00010011 = .ok .dataNew ∧ decodePanel 0b00000111 = .ok .deepSleep

/-! ### Host operations -/

/-- 42_state_machine.md R160, R161, R163: WAKE is accepted in Uninitialized, Asleep and Faulted, whatever the ignored
bits: BUSY set, ERR cleared, OP 1, the position at step 1, STATE still the source state; nothing else changes. -/
def Obligations.WakeIsAccepted : Prop :=
  ∀ (g : BitVec 29) (s : State), s.st.busy = false →
    s.st.state = .uninitialized ∨ s.st.state = .asleep ∨ s.st.state = .faulted →
    exec (.wake g) s =
      .next { s with st := { s.st with busy := true, op := 1, err := .none, step := 1, sub := .zero } }

/-- 42_state_machine.md R160, R161, R162, R171: DISPLAY is accepted in Awake when an image of `W` by `H` pixels is
declared; STATE becomes Displaying, and encoding (step 2) comes next. -/
def Obligations.DisplayIsAccepted : Prop :=
  ∀ (g : BitVec 29) (s : State), s.st.busy = false → s.st.state = .awake → s.regs.imgCtl.getLsbD 0 = true →
    (s.regs.imgDesc.extractLsb' 0 16).toNat = s.cfg.w → (s.regs.imgDesc.extractLsb' 16 16).toNat = s.cfg.h →
    exec (.display g) s =
      .next { s with
        st := { s.st with state := .displaying, busy := true, op := 2, err := .none, step := 2, sub := .zero } }

/-- 42_state_machine.md R160, R161, R172: CLEAR is accepted in Awake, with no regard to the image registers; STATE
becomes Clearing, and the first transaction (step 2) comes next. -/
def Obligations.ClearIsAccepted : Prop :=
  ∀ (g : BitVec 29) (s : State), s.st.busy = false → s.st.state = .awake →
    exec (.clear g) s =
      .next { s with
        st := { s.st with state := .clearing, busy := true, op := 3, err := .none, step := 2, sub := .zero } }

/-- 42_state_machine.md R160, R161, R173: SLEEP is accepted in Awake; STATE stays Awake. -/
def Obligations.SleepIsAccepted : Prop :=
  ∀ (g : BitVec 29) (s : State), s.st.busy = false → s.st.state = .awake →
    exec (.sleep g) s =
      .next { s with st := { s.st with busy := true, op := 4, err := .none, step := 1, sub := .zero } }

/-- 42_state_machine.md R160, R161, R174: TEARDOWN is accepted in Uninitialized, Awake, Asleep and Faulted. -/
def Obligations.TeardownIsAccepted : Prop :=
  ∀ (g : BitVec 29) (s : State), s.st.busy = false →
    s.st.state = .uninitialized ∨ s.st.state = .awake ∨ s.st.state = .asleep ∨ s.st.state = .faulted →
    exec (.teardown g) s =
      .next { s with st := { s.st with busy := true, op := 5, err := .none, step := 1, sub := .zero } }

/-- 42_state_machine.md R176: the reserved codes are rejected with InvalidOp in every state but Absent: `st.err` and
`st.op` are written, OpDone is recorded, and nothing else changes. -/
def Obligations.ReservedCodesAreRejected : Prop :=
  ∀ (g : BitVec 29) (s : State), s.st.busy = false → s.st.state ≠ .absent →
    exec (.reservedOp0 g) s =
      .next { s with st := { s.st with op := 0, err := .invalidOp }, trace := s.trace ++ [.opDone 0 .invalidOp] } ∧
    exec (.reservedOp6 g) s =
      .next { s with st := { s.st with op := 6, err := .invalidOp }, trace := s.trace ++ [.opDone 6 .invalidOp] } ∧
    exec (.reservedOp7 g) s =
      .next { s with st := { s.st with op := 7, err := .invalidOp }, trace := s.trace ++ [.opDone 7 .invalidOp] }

/-- 42_state_machine.md R161, R168; 60_exceptions.md R267: an operation written in a state that does not accept it is
rejected with InvalidState, and nothing but `st.err`, `st.op` and the trace changes. -/
def Obligations.WrongStateIsRejected : Prop :=
  ∀ (g : BitVec 29) (s : State) (i : Instr) (op : OpCode), s.st.busy = false →
    ((i = .wake g ∧ op = 1 ∧ (s.st.state = .awake ∨ s.st.state = .released)) ∨
      (((i = .display g ∧ op = 2) ∨ (i = .clear g ∧ op = 3) ∨ (i = .sleep g ∧ op = 4)) ∧
        (s.st.state = .uninitialized ∨ s.st.state = .asleep ∨ s.st.state = .faulted ∨ s.st.state = .released)) ∨
      (i = .teardown g ∧ op = 5 ∧ s.st.state = .released)) →
    exec i s =
      .next { s with
        st := { s.st with op := op, err := .invalidState }
        trace := s.trace ++ [.opDone op .invalidState] }

/-- 60_exceptions.md R262: DISPLAY in Awake with the image absent, or declared of another width or height, is rejected
with InvalidInput; no line changes. -/
def Obligations.MissizedImageIsRejected : Prop :=
  ∀ (g : BitVec 29) (s : State), s.st.busy = false → s.st.state = .awake →
    s.regs.imgCtl.getLsbD 0 = false ∨ (s.regs.imgDesc.extractLsb' 0 16).toNat ≠ s.cfg.w ∨
      (s.regs.imgDesc.extractLsb' 16 16).toNat ≠ s.cfg.h →
    exec (.display g) s =
      .next { s with
        st := { s.st with op := 2, err := .invalidInput }
        trace := s.trace ++ [.opDone 2 .invalidInput] }

/-- 42_state_machine.md R177: in Absent every code, reserved ones included, is rejected with HardwareAbsent, no line
changes, and no line is driven in any legal state. -/
def Obligations.AbsentRejectsEveryCode : Prop :=
  (∀ s, Legal s → s.st.state = .absent →
    s.lines = { enable := .z, reset := .z, mode := .z, indicator := .z, sclk := .z, mosi := .z }) ∧
  ∀ (g : BitVec 29) (s : State) (i : Instr) (op : OpCode), (i, op) ∈ Expect.hostCodes g →
    s.st.busy = false → s.st.state = .absent →
    exec i s =
      .next { s with
        st := { s.st with op := op, err := .hardwareAbsent }
        trace := s.trace ++ [.opDone op .hardwareAbsent] }

/-- 10_state.md R31, 42_state_machine.md R160: a write to CMD while busy changes no state and records no event. -/
def Obligations.CommandWhileBusyIsIgnored : Prop :=
  ∀ (g : BitVec 29) (s : State) (i : Instr) (op : OpCode), (i, op) ∈ Expect.hostCodes g → s.st.busy = true →
    exec i s = .next s

/-- 42_state_machine.md R161, R162, R168: a write to CMD while idle is checked in the order of R162 against the table of
R161; the first error that applies rejects it, which changes `st.err` and `st.op` only and records OpDone; with no error
the operation is accepted: BUSY 1, ERR 0, and nothing recorded, driven or stored. -/
def Obligations.CommandsAreCheckedInOrder : Prop :=
  ∀ (g : BitVec 29) (s : State) (i : Instr) (op : OpCode), (i, op) ∈ Expect.hostCodes g → s.st.busy = false →
    (Expect.firstError s op ≠ .none →
      exec i s = .next { s with
        st := { s.st with op := op, err := Expect.firstError s op }
        trace := s.trace ++ [.opDone op (Expect.firstError s op)] }) ∧
    (Expect.firstError s op = .none →
      ∃ t, exec i s = .next t ∧ t = { s with st := t.st } ∧ t.st.busy = true ∧ t.st.op = op ∧ t.st.err = .none ∧
        t.st.polls = s.st.polls)

/-- The frame of a CMD write (42_state_machine.md R160, R168), for all eight codes: the host registers, the lines, every
byte of every memory, the environment, the poll counter and the build are unchanged; the trace grows by at most one
OpDone; `st.state` changes only to Displaying or Clearing. -/
def Obligations.HostCommandFrame : Prop :=
  ∀ (g : BitVec 29) (s t : State) (i : Instr) (op : OpCode), (i, op) ∈ Expect.hostCodes g → exec i s = .next t →
    t.cfg = s.cfg ∧ t.regs = s.regs ∧ t.lines = s.lines ∧ t.ser = s.ser ∧ t.env = s.env ∧
    t.hostData = s.hostData ∧ t.st.polls = s.st.polls ∧
    (∀ a, imgByte t a = imgByte s a ∧ pkByte t a = pkByte s a ∧ plaByte t a = plaByte s a ∧
      plbByte t a = plbByte s a) ∧
    (t.trace = s.trace ∨ ∃ e, t.trace = s.trace ++ [.opDone op e]) ∧
    (t.st.state = s.st.state ∨ (op = 2 ∧ t.st.state = .displaying) ∨ (op = 3 ∧ t.st.state = .clearing))

/-! ### Panel commands -/

/-- 40_bus_transport.md R120, R121, R122, R124: the micro-steps of every panel command's frame, each with its one event
and its line; a byte's `bus_err` draw decides between the next byte and the release of ENABLE, and a released ENABLE
raises BusFailure, whose ABORT comes next. A byte puts its own waveform on the serial pair (R123): the framer holds
`shiftOut` of it, whose waveform ByteIsSentMsbFirst describes. The model's choices in it: MOSI is `Lo` between the bytes
of a frame (log 8), the shift register and bit counter hold what log 26 says after a byte, the synchroniser's output keeps
its last sample (log 28), and 0x10 and 0x13 outside a DISPLAY and a CLEAR take the planes (log 19). -/
def Obligations.PanelFrameMicroSteps : Prop :=
  ∀ (s : State) (i : Instr) (c : Byte) (d : List Byte), (i, c, d) ∈ Expect.sends s →
    (s.st.sub = .zero →
      exec i s = .next { s with
        st := { s.st with sub := .enableLo }
        lines := { s.lines with mode := .lo }
        trace := s.trace ++ [.lineSet .mode .lo] }) ∧
    (s.st.sub = .enableLo →
      exec i s = .next { s with
        st := { s.st with sub := .byte 0 }
        lines := { s.lines with enable := .lo }
        trace := s.trace ++ [.lineSet .enable .lo] }) ∧
    (∀ e rest, s.st.sub = .byte 0 → s.env.busErrIn = e :: rest →
      exec i s = .next { s with
        st := { s.st with sub := if e then .busFail else .modeHi }
        lines := { s.lines with sclk := .lo, mosi := .lo }
        ser := shiftOut c s.ser
        env := { s.env with busErrIn := rest }
        trace := s.trace ++ [.byte s.lines.mode c] }) ∧
    (s.st.sub = .modeHi →
      exec i s = .next { s with
        st := { s.st with sub := if d = [] then .enableHi else .byte 1 }
        lines := { s.lines with mode := .hi }
        trace := s.trace ++ [.lineSet .mode .hi] }) ∧
    (∀ k b e rest, s.st.sub = .byte (k + 1) → d[k]? = some b → s.env.busErrIn = e :: rest →
      exec i s = .next { s with
        st := { s.st with sub := if e then .busFail else if k + 1 < d.length then .byte (k + 2) else .enableHi }
        lines := { s.lines with sclk := .lo, mosi := .lo }
        ser := shiftOut b s.ser
        env := { s.env with busErrIn := rest }
        trace := s.trace ++ [.byte s.lines.mode b] }) ∧
    (s.st.sub = .enableHi →
      exec i s = .next { s with
        st := { s.st with sub := .indLo }
        lines := { s.lines with enable := .hi }
        trace := s.trace ++ [.lineSet .enable .hi] }) ∧
    (s.st.sub = .busFail →
      exec i s = .next { s with
        st := { s.st with sub := .abort .busFailure }
        lines := { s.lines with enable := .hi }
        trace := s.trace ++ [.lineSet .enable .hi] })

/-- 41_handshake.md R140, R142: the micro-steps of the wait after every panel command: settle, sample, count and check
the budget, toggle, delay, and, on ready, INDICATOR up, the last delay and the next step; on a spent budget INDICATOR
up and the raise of DeviceUnresponsive. -/
def Obligations.PanelWaitMicroSteps : Prop :=
  ∀ (s : State) (i : Instr) (c : Byte) (d : List Byte), (i, c, d) ∈ Expect.sends s →
    (s.st.sub = .indLo →
      exec i s = .next { s with
        st := { s.st with sub := .settle }
        lines := { s.lines with indicator := .lo }
        trace := s.trace ++ [.lineSet .indicator .lo] }) ∧
    (s.st.sub = .settle →
      exec i s = .next { s with
        st := { s.st with sub := .sample, polls := 0 }
        trace := s.trace ++ [.delay .tSettle] }) ∧
    (∀ v rest, s.st.sub = .sample → s.env.busyIn = v :: rest →
      exec i s = .next { s with
        st := { s.st with
          sub := if v = s.cfg.busyReadyLevel then .readyHi
            else if s.regs.timeout ≠ 0 ∧ Expect.counted (s.st.polls.toNat + 1) = s.regs.timeout then .timedOut
            else .toggle
          polls := if v = s.cfg.busyReadyLevel then s.st.polls else Expect.counted (s.st.polls.toNat + 1) }
        ser := { s.ser with busySync := v }
        env := { s.env with busyIn := rest }
        trace := s.trace ++ [.busySample v] }) ∧
    (∀ v w, (v = .lo ∧ w = .hi) ∨ (v = .hi ∧ w = .lo) → s.st.sub = .toggle → s.lines.indicator = v →
      exec i s = .next { s with
        st := { s.st with sub := .pollDelay }
        lines := { s.lines with indicator := w }
        trace := s.trace ++ [.lineSet .indicator w] }) ∧
    (s.st.sub = .pollDelay →
      exec i s = .next { s with
        st := { s.st with sub := .sample }
        trace := s.trace ++ [.delay .tSettle] }) ∧
    (s.st.sub = .readyHi →
      exec i s = .next { s with
        st := { s.st with sub := .lastDelay }
        lines := { s.lines with indicator := .hi }
        trace := s.trace ++ [.lineSet .indicator .hi] }) ∧
    (s.st.sub = .lastDelay →
      exec i s = .next { s with
        st := { s.st with step := s.st.step + 1, sub := .zero }
        trace := s.trace ++ [.delay .tSettle] }) ∧
    (s.st.sub = .timedOut →
      exec i s = .next { s with
        st := { s.st with sub := .abort .deviceUnresponsive }
        lines := { s.lines with indicator := .hi }
        trace := s.trace ++ [.lineSet .indicator .hi] })

/-- 42_state_machine.md R167, 60_exceptions.md R266: where an error has been raised, the next micro-step of any panel
command is ABORT: Faulted, ERR the error, BUSY 0, position 0, and OpDone recorded; nothing else changes, and in a legal
state ENABLE, INDICATOR and RESET are `Hi` there. R167 speaks of BusFailure and DeviceUnresponsive, the only errors that
are raised; that ABORT would deliver any other alike is the model's choice (log 12). -/
def Obligations.AbortEndsTheOperation : Prop :=
  ∀ (s : State) (i : Instr) (c : Byte) (d : List Byte) (e : Err), (i, c, d) ∈ Expect.sends s →
    s.st.sub = .abort e →
    exec i s = .next { s with
      st := { s.st with state := .faulted, err := e, busy := false, step := 0, sub := .zero }
      trace := s.trace ++ [.opDone s.st.op e] } ∧
    (Legal s → s.st.busy = true → s.lines.enable = .hi ∧ s.lines.indicator = .hi ∧ s.lines.reset = .hi)

/-- 40_bus_transport.md R120, R125, R126; 44_panel_commands.md R230 to R247: for each of the 18 panel commands, from its
start, with no bus failure and the first sample ready, `10 + n` micro-steps send its opcode and its `n` data bytes in
one frame, wait once, and leave the position at the next step; everything else is unchanged. `∃ ser` leaves open what R29
does: the shift register and bit counter. The model's choices in it: the waveform log, its own field, holds the last byte's
waveform (log 21), the synchroniser's output keeps its last sample (log 28), and 0x10 and 0x13 outside a DISPLAY and a
CLEAR take the planes (log 19). -/
def Obligations.PanelCommandSendsItsTransaction : Prop :=
  ∀ (s : State) (i : Instr) (c : Byte) (d : List Byte) (errs : List Bool) (busy : List Logic),
    (i, c, d) ∈ Expect.sends s → s.st.sub = .zero →
    s.env.busErrIn = List.replicate (d.length + 1) false ++ errs → s.env.busyIn = s.cfg.busyReadyLevel :: busy →
    ∃ ser, ser.busySync = s.cfg.busyReadyLevel ∧ ser.wire = (shiftOut (d.getLastD c) s.ser).wire ∧
      execTimes i (10 + d.length) s = .next { s with
        st := { s.st with step := s.st.step + 1, sub := .zero, polls := 0 }
        lines := Expect.afterSend s.lines
        ser := ser
        env := { s.env with busErrIn := errs, busyIn := busy }
        trace := s.trace ++ Expect.frame c d ++ Expect.wait s.cfg 0 }

/-- 41_handshake.md R140, R143; 10_state.md R35: the wait after any panel command, seeing any number `m` of not-ready
samples the budget allows and then a ready one, takes `5 + 3m` micro-steps, blinks INDICATOR as R143 says, leaves `m` in
the poll counter (saturating) and INDICATOR `Hi`, and goes on to the next step. That the synchroniser's output keeps the
last sample to the end is the model's choice (log 28). -/
def Obligations.WaitEndsWhenReady : Prop :=
  ∀ (s : State) (i : Instr) (c : Byte) (d : List Byte) (m : Nat) (busy : List Logic),
    (i, c, d) ∈ Expect.sends s → s.st.sub = .indLo → Expect.allows s.regs.timeout m →
    s.env.busyIn = Expect.samples s.cfg m ++ busy →
    execTimes i (5 + 3 * m) s = .next { s with
      st := { s.st with step := s.st.step + 1, sub := .zero, polls := Expect.counted m }
      lines := { s.lines with indicator := .hi }
      ser := { s.ser with busySync := s.cfg.busyReadyLevel }
      env := { s.env with busyIn := busy }
      trace := s.trace ++ Expect.wait s.cfg m }

/-- 41_handshake.md R142, 60_exceptions.md R263, 42_state_machine.md R167: with BUDGET = N >= 1, a wait whose first N
samples all read not ready raises DeviceUnresponsive at the N-th: N samples, N settle delays, INDICATOR `Hi`, then the
abort to Faulted. That the synchroniser's output keeps the last sample to the end is the model's choice (log 28). -/
def Obligations.WaitFailsAtItsBudget : Prop :=
  ∀ (s : State) (i : Instr) (c : Byte) (d : List Byte) (busy : List Logic),
    (i, c, d) ∈ Expect.sends s → s.st.sub = .indLo → s.regs.timeout ≠ 0 →
    s.env.busyIn = List.replicate s.regs.timeout.toNat (Expect.notReady s.cfg) ++ busy →
    execTimes i (2 + 3 * s.regs.timeout.toNat) s = .next { s with
      st := { s.st with
        state := .faulted, err := .deviceUnresponsive, busy := false, step := 0, sub := .zero
        polls := s.regs.timeout }
      lines := { s.lines with indicator := .hi }
      ser := { s.ser with busySync := Expect.notReady s.cfg }
      env := { s.env with busyIn := busy }
      trace := s.trace ++ Expect.failedWait s.cfg s.regs.timeout.toNat ++ [.opDone s.st.op .deviceUnresponsive] }

/-- 41_handshake.md R145: with BUDGET = 0, a wait that sees only not-ready samples is, after any number of them, still
in its poll loop; the operation has not ended and no OpDone is recorded. -/
def Obligations.UnboundedWaitGoesOn : Prop :=
  ∀ (s : State) (i : Instr) (c : Byte) (d : List Byte) (m : Nat) (busy : List Logic),
    (i, c, d) ∈ Expect.sends s → s.st.sub = .indLo → s.regs.timeout = 0 →
    s.env.busyIn = List.replicate m (Expect.notReady s.cfg) ++ busy →
    ∃ t, execTimes i (2 + 3 * m) s = .next t ∧ t.st.sub = .sample ∧ t.st.busy = s.st.busy ∧
      t.st.state = s.st.state ∧ t.st.step = s.st.step ∧ t.st.polls = Expect.counted m ∧
      t.trace = s.trace ++ [.lineSet .indicator .lo, .delay .tSettle] ++ Expect.polls s.cfg m

/-- 40_bus_transport.md R122, R124; 60_exceptions.md R264, 42_state_machine.md R167: a bus failure at byte `k` of any
panel command (0 the command byte) records that byte, raises ENABLE at once, sends no further byte, skips the wait and
aborts to Faulted with BusFailure; MODE keeps its level, `∃ ser` leaves open what R29 does: the shift register and
bit counter. The model's choices in it: the waveform log, its own field, holds the waveform of byte `k` (log 21), the
synchroniser's output keeps its last sample (log 28), and 0x10 and 0x13 outside a DISPLAY and a CLEAR take the planes
(log 19). -/
def Obligations.BusFailureEndsTheFrame : Prop :=
  ∀ (s : State) (i : Instr) (c : Byte) (d : List Byte) (k : Nat) (errs : List Bool),
    (i, c, d) ∈ Expect.sends s → s.st.sub = .zero → k ≤ d.length →
    s.env.busErrIn = List.replicate k false ++ true :: errs →
    ∃ ser, ser.busySync = s.ser.busySync ∧ ser.wire = (shiftOut ((c :: d).getD k c) s.ser).wire ∧
      execTimes i ((Expect.frameUpTo c d k).length + 2) s = .next { s with
        st := { s.st with state := .faulted, err := .busFailure, busy := false, step := 0, sub := .zero }
        lines := { s.lines with
          enable := .hi, mode := if k = 0 then .lo else .hi, sclk := .lo, mosi := .lo }
        ser := ser
        env := { s.env with busErrIn := errs }
        trace := s.trace ++ Expect.frameUpTo c d k ++ [.lineSet .enable .hi, .opDone s.st.op .busFailure] }

/-- 10_state.md R23, R24: at every position inside its SEND, a panel command answers a next state and records exactly
one event, whatever the environment's draws. -/
def Obligations.PanelCommandAlwaysMoves : Prop :=
  ∀ (s : State) (i : Instr) (c : Byte) (d : List Byte), (i, c, d) ∈ Expect.sends s →
    inSend d.length s.st.sub = true →
    ∃ t e, exec i s = .next t ∧ t.trace = s.trace ++ [e]

/-- The frame of a panel command's micro-step, for all 18: the build, the host registers, every byte of every memory,
the host's word, `st.op`, the RESET line, the moves to come and the reset count are unchanged; BUSY, STATE and ERR
change only in an abort, the poll counter only at the settle delay and at a sample, ENABLE and MODE only outside the
wait, and INDICATOR only inside it (40_bus_transport.md R120, R121; 41_handshake.md R140; 20_memory.md R63). -/
def Obligations.PanelCommandFrame : Prop :=
  ∀ (s t : State) (i : Instr) (c : Byte) (d : List Byte), (i, c, d) ∈ Expect.sends s → exec i s = .next t →
    t.cfg = s.cfg ∧ t.regs = s.regs ∧ t.hostData = s.hostData ∧ t.st.op = s.st.op ∧
    t.lines.reset = s.lines.reset ∧ t.env.turns = s.env.turns ∧ t.env.epoch = s.env.epoch ∧
    (∀ a, imgByte t a = imgByte s a ∧ pkByte t a = pkByte s a ∧ plaByte t a = plaByte s a ∧
      plbByte t a = plbByte s a) ∧
    ((∀ e, s.st.sub ≠ .abort e) →
      t.st.busy = s.st.busy ∧ t.st.state = s.st.state ∧ t.st.err = s.st.err) ∧
    (s.st.sub ≠ .settle → s.st.sub ≠ .sample → t.st.polls = s.st.polls) ∧
    (inWait s.st.sub = true → t.lines.enable = s.lines.enable ∧ t.lines.mode = s.lines.mode) ∧
    (inWait s.st.sub = false → t.lines.indicator = s.lines.indicator)

/-- 40_bus_transport.md R123: whatever was sent before, a byte's eight rising clock edges carry its bits, bit 7 first;
SCLK starts and ends `Lo`. The last clause, that MOSI holds wherever SCLK changes level, is the sentence R123 marks [from
general knowledge, not in source] (93_implementation_defined.md G1; N11 of 91_not_in_source.md): the spec's own inference,
which the model follows (log 27), and no word of the source. PanelFrameMicroSteps says that a panel command's bytes are sent so. -/
def Obligations.ByteIsSentMsbFirst : Prop :=
  ∀ (b : Byte) (r : Serial),
    sampledBits (shiftOut b r).wire =
      [b.getLsbD 7, b.getLsbD 6, b.getLsbD 5, b.getLsbD 4, b.getLsbD 3, b.getLsbD 2, b.getLsbD 1, b.getLsbD 0] ∧
    ((shiftOut b r).wire.map (·.1)).head? = some .lo ∧ ((shiftOut b r).wire.map (·.1)).getLast? = some .lo ∧
    (∀ x ∈ (shiftOut b r).wire.zip (shiftOut b r).wire.tail, x.1.1 ≠ x.2.1 → x.1.2 = x.2.2)

/-! ### Whole operations -/

/-- 42_state_machine.md R163, R164, R165, R166: a WAKE written to an idle block in Uninitialized, Asleep or Faulted,
with no bus failure and every wait ending within its budget after any number of not-ready samples, records the reset
pulse and the 13 transactions of its fixed list, ends Awake with ERR 0 and BUSY 0, and its transaction log depends only
on the build's parameters, whatever those numbers and the start state are. -/
def Obligations.WakeRunsItsSequence : Prop :=
  ∀ (s : State) (v : Word) (ms : List Nat) (errs : List Bool) (busy : List Logic),
    s.st.busy = false → s.st.state = .uninitialized ∨ s.st.state = .asleep ∨ s.st.state = .faulted →
    v.extractLsb' 0 3 = 1 → s.env.turns = [.host (.wr 0x00 v)] →
    ms.length = 13 → (∀ m ∈ ms, Expect.allows s.regs.timeout m) →
    s.env.busErrIn = List.replicate (Expect.byteCount (Expect.wakeSends s.cfg)) false ++ errs →
    s.env.busyIn = Expect.allSamples s.cfg ms ++ busy →
    ∃ t evs, t.trace = s.trace ++ evs ∧
      steps (1 + evs.length) s = .next t ∧
      evs = Expect.pulse ++ Expect.transactions s.cfg (Expect.wakeSends s.cfg) ms ++ [.opDone 1 .none] ∧
      t.st = Expect.completed s.st 1 .awake (Expect.counted (ms.getLastD 0)) ∧
      t.lines = { Expect.afterSend s.lines with reset := .hi } ∧
      t.cfg = s.cfg ∧ t.regs = s.regs ∧ t.ram = s.ram ∧
      logFrom .hi none evs = Expect.records (Expect.wakeSends s.cfg)

/-- 42_state_machine.md R171, 43_framebuffer_encoder.md R206, R207: a DISPLAY written to an idle Awake block that
declares an image of its size, with no bus failure and every wait ending within its budget after any number of not-ready
samples (the wait of the refresh as long as the panel likes: R245), encodes IMG, sends plane A (bit 7 of each sampled
pixel) with 0x10, plane B (bit 6) with 0x13, refreshes with 0x12, and ends Awake; IMG and the host registers are
unchanged. That ENCODE takes `NPK + NPL + 1` silent micro-steps is the model's choice (log 11). -/
def Obligations.DisplaySendsBothPlanes : Prop :=
  ∀ (s : State) (v : Word) (ms : List Nat) (errs : List Bool) (busy : List Logic),
    s.cfg.wellFormed = true → s.st.busy = false → s.st.state = .awake → s.regs.imgCtl.getLsbD 0 = true →
    (s.regs.imgDesc.extractLsb' 0 16).toNat = s.cfg.w → (s.regs.imgDesc.extractLsb' 16 16).toNat = s.cfg.h →
    v.extractLsb' 0 3 = 2 → s.env.turns = [.host (.wr 0x00 v)] →
    ms.length = 3 → (∀ m ∈ ms, Expect.allows s.regs.timeout m) →
    s.env.busErrIn = List.replicate (2 * s.cfg.npl + 3) false ++ errs →
    s.env.busyIn = Expect.allSamples s.cfg ms ++ busy →
    ∃ t evs, t.trace = s.trace ++ evs ∧
      steps (1 + (s.cfg.npk + s.cfg.npl + 1) + evs.length) s = .next t ∧
      evs = Expect.displayEvents s ms ++ [.opDone 2 .none] ∧
      t.st = Expect.completed s.st 2 .awake (Expect.counted (ms.getLastD 0)) ∧ t.lines = Expect.afterSend s.lines ∧
      t.cfg = s.cfg ∧ t.regs = s.regs ∧ t.ram.img = s.ram.img

/-- 42_state_machine.md R172: a CLEAR written to an idle Awake block, whatever the image registers hold, with no bus
failure and every wait ending within its budget after any number of not-ready samples, sends `NPL` bytes of 0xFF with
0x10 and with 0x13, refreshes, and ends Awake; no memory changes. -/
def Obligations.ClearSendsWhitePlanes : Prop :=
  ∀ (s : State) (v : Word) (ms : List Nat) (errs : List Bool) (busy : List Logic),
    s.st.busy = false → s.st.state = .awake → v.extractLsb' 0 3 = 3 → s.env.turns = [.host (.wr 0x00 v)] →
    ms.length = 3 → (∀ m ∈ ms, Expect.allows s.regs.timeout m) →
    s.env.busErrIn = List.replicate (2 * s.cfg.npl + 3) false ++ errs →
    s.env.busyIn = Expect.allSamples s.cfg ms ++ busy →
    ∃ t evs, t.trace = s.trace ++ evs ∧
      steps (1 + evs.length) s = .next t ∧
      evs = Expect.clearEvents s.cfg ms ++ [.opDone 3 .none] ∧
      t.st = Expect.completed s.st 3 .awake (Expect.counted (ms.getLastD 0)) ∧ t.lines = Expect.afterSend s.lines ∧
      t.cfg = s.cfg ∧ t.regs = s.regs ∧ t.ram = s.ram

/-- 42_state_machine.md R173: a SLEEP written to an idle Awake block sends 0x02 and then 0x07 with the byte 0xA5, each
with its wait, and ends Asleep. -/
def Obligations.SleepSendsPowerOffAndDeepSleep : Prop :=
  ∀ (s : State) (v : Word) (m n : Nat) (errs : List Bool) (busy : List Logic),
    s.st.busy = false → s.st.state = .awake → v.extractLsb' 0 3 = 4 → s.env.turns = [.host (.wr 0x00 v)] →
    Expect.allows s.regs.timeout m → Expect.allows s.regs.timeout n →
    s.env.busErrIn = List.replicate 3 false ++ errs → s.env.busyIn = Expect.allSamples s.cfg [m, n] ++ busy →
    ∃ t, steps (23 + 3 * (m + n)) s = .next t ∧
      t.trace = s.trace ++ Expect.transactions s.cfg [(0x02, []), (0x07, [0xA5])] [m, n] ++ [.opDone 4 .none] ∧
      t.st = Expect.completed s.st 4 .asleep (Expect.counted n) ∧ t.lines = Expect.afterSend s.lines ∧
      t.cfg = s.cfg ∧ t.regs = s.regs ∧ t.ram = s.ram

/-- 42_state_machine.md R174: a TEARDOWN written to an idle block in Uninitialized, Awake, Asleep or Faulted raises
ENABLE, releases every output line, sends nothing, and ends Released; nothing else changes. -/
def Obligations.TeardownReleasesTheLines : Prop :=
  ∀ (s : State) (v : Word), s.st.busy = false →
    s.st.state = .uninitialized ∨ s.st.state = .awake ∨ s.st.state = .asleep ∨ s.st.state = .faulted →
    v.extractLsb' 0 3 = 5 → s.env.turns = [.host (.wr 0x00 v)] →
    steps 4 s = .next { s with
      st := Expect.completed s.st 5 .released s.st.polls
      lines := { enable := .z, reset := .z, mode := .z, indicator := .z, sclk := .z, mosi := .z }
      env := { s.env with turns := [] }
      trace := s.trace ++ [.lineSet .enable .hi, .release, .opDone 5 .none] }

/-! ### Encoder -/

/-- 43_framebuffer_encoder.md R201: the quantisation table. -/
def Obligations.QuantisationTable : Prop :=
  ∀ p : Byte,
    quantise p = p.extractLsb' 6 2 ∧
    quantise p = (if p.toNat ≤ 0x3F then 0b00 else if p.toNat ≤ 0x7F then 0b01 else if p.toNat ≤ 0xBF then 0b10
      else 0b11) ∧
    shadeOfCode (quantise p) = (if p.toNat ≤ 0x3F then .black else if p.toNat ≤ 0x7F then .dark
      else if p.toNat ≤ 0xBF then .light else .white)

/-- 43_framebuffer_encoder.md R204: the code and the plane bits of each shade; every code has a pair, bits 1 and 0 of
it, and every pair comes from exactly one code. -/
def Obligations.PlaneBitsOfShades : Prop :=
  (Shade.white.code = 0b11 ∧ Shade.white.planeBits = (true, true)) ∧
  (Shade.light.code = 0b10 ∧ Shade.light.planeBits = (true, false)) ∧
  (Shade.dark.code = 0b01 ∧ Shade.dark.planeBits = (false, true)) ∧
  (Shade.black.code = 0b00 ∧ Shade.black.planeBits = (false, false)) ∧
  (∀ c : BitVec 2, (shadeOfCode c).planeBits = (c.getLsbD 1, c.getLsbD 0)) ∧
  (∀ x : Bool × Bool, ∃ c : BitVec 2, (shadeOfCode c).planeBits = x ∧
    ∀ c' : BitVec 2, (shadeOfCode c').planeBits = x → c' = c)

/-- 43_framebuffer_encoder.md R202: Nominal samples the pixel of position `i` itself, Legacy the one three positions
earlier, wrapping to the end of the image. -/
def Obligations.SamplingWindow : Prop :=
  ∀ (s : State) (i : Nat), s.cfg.wellFormed = true → i < s.cfg.npix →
    (s.cfg.sampling = .nominal → samplePixel s i = imgByte s i) ∧
    (s.cfg.sampling = .legacy → samplePixel s i = imgByte s (if 3 ≤ i then i - 3 else s.cfg.npix - 3 + i))

/-- 43_framebuffer_encoder.md R203, R206, R207: ENCODE, run from its start with the host quiet, ends at the next step
with four sampled codes in each byte of PK, the first in bits 7:6, and with plane A holding bit 7 and plane B bit 6 of
every sampled pixel, in scan order, MSB first; it writes PK, PLA and PLB only, records no event and moves no line. That
it takes `NPK + NPL + 1` micro-steps is the model's choice (log 11). -/
def Obligations.EncodeClosedForm : Prop :=
  ∀ (s : State), s.cfg.wellFormed = true → s.st.busy = true → s.st.op = 2 → s.st.step = 2 → s.st.sub = .zero →
    s.env.turns = [] →
    ∃ t, steps (s.cfg.npk + s.cfg.npl + 1) s = .next t ∧
      t = { s with st := { s.st with step := 3 }, ram := { t.ram with img := s.ram.img } } ∧
      (∀ b, b < s.cfg.npk → pkByte t b =
        ((quantise (samplePixel s (4 * b))).setWidth 8 <<< 6)
          ||| ((quantise (samplePixel s (4 * b + 1))).setWidth 8 <<< 4)
          ||| ((quantise (samplePixel s (4 * b + 2))).setWidth 8 <<< 2)
          ||| (quantise (samplePixel s (4 * b + 3))).setWidth 8) ∧
      ∀ o k, o < s.cfg.npl → k < 8 →
        (plaByte t o).getLsbD (7 - k) = (samplePixel s (8 * o + k)).getLsbD 7 ∧
        (plbByte t o).getLsbD (7 - k) = (samplePixel s (8 * o + k)).getLsbD 6

/-- 43_framebuffer_encoder.md R208: in both sampling modes, an image whose pixels all have one shade encodes to planes
whose bytes are all 0xFF or all 0x00, by that shade's plane bits. The number of micro-steps is the model's choice
(log 11). -/
def Obligations.UniformImagesEncodeUniformly : Prop :=
  ∀ (s : State) (sh : Shade), s.cfg.wellFormed = true → s.st.busy = true → s.st.op = 2 → s.st.step = 2 →
    s.st.sub = .zero → s.env.turns = [] → (∀ i, i < s.cfg.npix → shadeOfCode (quantise (imgByte s i)) = sh) →
    ∃ t, steps (s.cfg.npk + s.cfg.npl + 1) s = .next t ∧
      ∀ o, o < s.cfg.npl →
        plaByte t o = (if sh = .white ∨ sh = .light then 0xFF else 0x00) ∧
        plbByte t o = (if sh = .white ∨ sh = .dark then 0xFF else 0x00)

/-- 43_framebuffer_encoder.md R209: the planes of an ENCODE depend on nothing but the pixels of IMG and the build's
width, height and sampling: two states that agree on these, whatever else differs, encode to the same planes. The number
of micro-steps is the model's choice (log 11). -/
def Obligations.EncodingDependsOnTheImageOnly : Prop :=
  ∀ (s s' : State), s.cfg.wellFormed = true → s'.cfg.w = s.cfg.w → s'.cfg.h = s.cfg.h →
    s'.cfg.sampling = s.cfg.sampling → (∀ i, i < s.cfg.npix → imgByte s' i = imgByte s i) →
    (s.st.busy = true ∧ s.st.op = 2 ∧ s.st.step = 2 ∧ s.st.sub = .zero ∧ s.env.turns = []) →
    (s'.st.busy = true ∧ s'.st.op = 2 ∧ s'.st.step = 2 ∧ s'.st.sub = .zero ∧ s'.env.turns = []) →
    ∃ t t', steps (s.cfg.npk + s.cfg.npl + 1) s = .next t ∧ steps (s.cfg.npk + s.cfg.npl + 1) s' = .next t' ∧
      ∀ o, o < s.cfg.npl → plaByte t' o = plaByte t o ∧ plbByte t' o = plbByte t o

/-- 60_exceptions.md R278, 43_framebuffer_encoder.md R210: by the panel contract, whatever the panel was sent before, the
transactions and waits of a DISPLAY that completes leave on the surface the planes sent, and the shade intended at scan
position `i` is the one of the sampled pixel; under Nominal sampling that is the pixel of IMG at `i` itself. Those of a
CLEAR leave White everywhere. That the surface is not known between the refresh and the operation's OpDone is the model's
reading (log 20). -/
def Obligations.RefreshShowsTheSampledShades : Prop :=
  ∀ (s : State) (w : PanelWatch) (ms : List Nat), s.cfg.wellFormed = true → ms.length = 3 →
    (w.seeAll s.cfg (Expect.displayEvents s ms)).panel.surface = none ∧
    (∃ planes,
      (w.seeAll s.cfg (Expect.displayEvents s ms ++ [.opDone 2 .none])).panel.surface = some planes ∧
      ∀ i, i < s.cfg.npix →
        intendedPixel planes i = shadeOfCode (quantise (samplePixel s i)) ∧
        (s.cfg.sampling = .nominal → intendedPixel planes i = shadeOfCode (quantise (imgByte s i)))) ∧
    (w.seeAll s.cfg (Expect.clearEvents s.cfg ms)).panel.surface = none ∧
    ∃ planes,
      (w.seeAll s.cfg (Expect.clearEvents s.cfg ms ++ [.opDone 3 .none])).panel.surface = some planes ∧
      ∀ i, i < s.cfg.npix → intendedPixel planes i = .white

/-- 60_exceptions.md R279, R270, 70_reset_and_hazards.md R290: whatever a panel was sent before, nothing of it is taken to
survive the transactions of a SLEEP, the RESET pulse of a WAKE, an abort or a block reset: neither the memories nor the
surface. That the surface is among what does not survive SLEEP and the pulse is the model's reading (log 20). -/
def Obligations.NothingSentBeforeSleepSurvives : Prop :=
  ∀ (c : Config) (w : PanelWatch),
    (∀ ms, ms.length = 2 →
      (w.seeAll c (Expect.transactions c [(0x02, []), (0x07, [0xA5])] ms ++ [.opDone 4 .none])).panel =
        PanelView.unknown) ∧
    (w.seeAll c Expect.pulse).panel = PanelView.unknown ∧
    (∀ op e, e = .busFailure ∨ e = .deviceUnresponsive → (w.see c (.opDone op e)).panel = PanelView.unknown) ∧
    (∀ p, (w.see c (.blockReset p)).panel = PanelView.unknown)

/-! ### Host interface -/

/-- 10_state.md R30, R33, R34, R35; 42_state_machine.md R180: what a host write leaves in an idle block: IMG_DESC and
TIMEOUT whole, bit 0 of IMG_CTL, and nothing at STATUS or an unmapped offset; nothing else changes. -/
def Obligations.RegisterWrites : Prop :=
  ∀ (s : State) (off : Nat) (v : Word) (rest : List Turn), s.st.busy = false →
    s.env.turns = .host (.wr off v) :: rest →
    (off = 0x08 → step s = .next { s with
      env := { s.env with turns := rest }, regs := { s.regs with imgDesc := v } }) ∧
    (off = 0x0C → step s = .next { s with
      env := { s.env with turns := rest }, regs := { s.regs with imgCtl := if v.getLsbD 0 then 1 else 0 } }) ∧
    (off = 0x10 → step s = .next { s with
      env := { s.env with turns := rest }, regs := { s.regs with timeout := v } }) ∧
    (off ≠ 0x00 → off ≠ 0x08 → off ≠ 0x0C → off ≠ 0x10 →
      step s = .next { s with env := { s.env with turns := rest } })

/-- 10_state.md R30, R31, R32, 20_memory.md R70, 42_state_machine.md R180: a host read returns the register's value (0 at
CMD and at unmapped offsets) at any time, and has no side effect. WAITIDLE (30_encoding.md R100) reads STATUS likewise,
and comes again, after one move of the block (log 17, the model's choice), exactly while its bit 3 reads 1. -/
def Obligations.RegisterReads : Prop :=
  (∀ (s : State) (rest : List Turn), s.env.turns = .host .waitIdle :: rest →
    step s = .next { s with
      env := { s.env with
        turns := if (statusWord s.st).getLsbD 3 then .block :: .host .waitIdle :: rest else rest }
      hostData := statusWord s.st }) ∧
  ∀ (s : State) (off : Nat) (rest : List Turn), s.env.turns = .host (.rd off) :: rest →
    ∃ w, step s = .next { s with env := { s.env with turns := rest }, hostData := w } ∧
      (off = 0x04 → w = statusWord s.st) ∧ (off = 0x08 → w = s.regs.imgDesc) ∧ (off = 0x0C → w = s.regs.imgCtl) ∧
      (off = 0x10 → w = s.regs.timeout) ∧
      (off ≠ 0x04 → off ≠ 0x08 → off ≠ 0x0C → off ≠ 0x10 → w = 0)

/-- 10_state.md R32, R21, 60_exceptions.md R261: the fields of STATUS, bit by bit. -/
def Obligations.StatusFields : Prop :=
  ∀ f : Fsm,
    (statusWord f).extractLsb' 0 3 = (match f.state with
      | .uninitialized => 0#3 | .awake => 1#3 | .displaying => 2#3 | .clearing => 3#3
      | .asleep => 4#3 | .faulted => 5#3 | .released => 6#3 | .absent => 7#3) ∧
    (statusWord f).getLsbD 3 = f.busy ∧
    (statusWord f).extractLsb' 4 3 = (match f.err with
      | .none => 0#3 | .invalidInput => 1#3 | .deviceUnresponsive => 2#3 | .busFailure => 3#3
      | .hardwareAbsent => 4#3 | .invalidState => 5#3 | .invalidOp => 6#3) ∧
    (statusWord f).getLsbD 7 = false ∧ (statusWord f).extractLsb' 8 3 = f.op ∧
    (statusWord f).extractLsb' 11 21 = 0#21

/-- 20_memory.md R61, R62; 42_state_machine.md R180: an IMG write to an idle block changes the byte at its index and
leaves every other index alone; one with an index from NPIX up changes nothing. -/
def Obligations.ImageWrites : Prop :=
  ∀ (s : State) (i : Nat) (b : Byte) (rest : List Turn), s.st.busy = false →
    s.env.turns = .host (.imgWr i b) :: rest →
    ∃ t, step s = .next t ∧
      t = { s with env := { s.env with turns := rest }, ram := { s.ram with img := t.ram.img } } ∧
      (i < s.cfg.npix → imgByte t i = b ∧ ∀ j, j ≠ i → imgByte t j = imgByte s j) ∧
      (s.cfg.npix ≤ i → t.ram.img = s.ram.img)

/-- 20_memory.md R61, R62: an IMG read returns the stored byte at any time, busy or not, 0 from NPIX up, and has no side
effect. -/
def Obligations.ImageReads : Prop :=
  ∀ (s : State) (i : Nat) (rest : List Turn), s.env.turns = .host (.imgRd i) :: rest →
    step s = .next { s with
      env := { s.env with turns := rest }
      hostData := if i < s.cfg.npix then (imgByte s i).setWidth 32 else 0 }

/-- 20_memory.md R62, 10_state.md R30, R31: every host write, of any register or of IMG, made while busy is ignored, and a
read of IMG made while busy returns the stored byte. -/
def Obligations.WritesWhileBusyAreIgnored : Prop :=
  ∀ (s : State) (rest : List Turn), s.st.busy = true →
    (∀ off v, s.env.turns = .host (.wr off v) :: rest → step s = .next { s with env := { s.env with turns := rest } }) ∧
    (∀ i b, s.env.turns = .host (.imgWr i b) :: rest → step s = .next { s with env := { s.env with turns := rest } }) ∧
    (∀ i, i < s.cfg.npix → s.env.turns = .host (.imgRd i) :: rest →
      step s = .next { s with env := { s.env with turns := rest }, hostData := (imgByte s i).setWidth 32 })

/-! ### Reset -/

/-- 10_state.md R39, 70_reset_and_hazards.md R290, R291, R293: block reset, in any state and in the middle of any
operation, with the draw `p` of `hw_present`: it records BlockReset(p) and no OpDone, and sets every value of R39's
table; the build is kept. -/
def Obligations.BlockResetConstructs : Prop :=
  ∀ (s : State) (p : Bool) (rest : List Turn), s.env.turns = .reset p :: rest →
    ∃ t, step s = .next t ∧ t.trace = s.trace ++ [.blockReset p] ∧ t.cfg = s.cfg ∧
      t.st.state = (if p then .uninitialized else .absent) ∧ t.st.busy = false ∧ t.st.op = 0 ∧
      t.st.err = (if p then .none else .hardwareAbsent) ∧ t.st.step = 0 ∧ t.st.sub = .zero ∧ t.st.polls = 0 ∧
      t.regs.imgDesc = 0 ∧ t.regs.imgCtl = 0 ∧ t.regs.timeout = 0 ∧
      (p = true → t.lines =
        { enable := .hi, reset := .hi, mode := .lo, indicator := .hi, sclk := .lo, mosi := .lo }) ∧
      (p = false → t.lines = { enable := .z, reset := .z, mode := .z, indicator := .z, sclk := .z, mosi := .z })

/-- 10_state.md R39: the machine's reset state has the values the spec gives for `hw_present` = 1. -/
def Obligations.ResetValues : Prop :=
  statusWord State.reset.st = 0x00000000 ∧ State.reset.st.step = 0 ∧ State.reset.st.sub = .zero ∧
  State.reset.st.polls = 0 ∧ State.reset.regs = { imgDesc := 0, imgCtl := 0, timeout := 0 } ∧
  State.reset.lines = { enable := .hi, reset := .hi, mode := .lo, indicator := .hi, sclk := .lo, mosi := .lo } ∧
  State.reset.cfg.w = 400 ∧ State.reset.cfg.h = 300

/-! ### The whole machine -/

/-- The reset state is legal, in the sense of `Safety.Legal`, which holds the model's choices of log 8 and log 9 too. -/
def Obligations.ResetIsLegal : Prop := Legal State.reset

/-- Every step keeps the state legal: idle means position 0 and no transient state (10_state.md R21, R23), busy means
ERR 0, STATE as R169 says and a position inside the running step, the lines have the levels of the position (ENABLE low
only in a frame, RESET low only in the pulse, INDICATOR high outside waits, the serial pair `Lo`: 10_state.md R25, R26) or
are released, the poll counter stays within its budget (R35), the memories stay canonical and in range, and no byte but
the 18 opcodes was ever sent with MODE `Lo` (30_encoding.md R94). Two clauses are the model's choice: MOSI is `Lo` between
the bytes of a frame too (log 8), and no position is in step 1 of DISPLAY or CLEAR (log 9). -/
def Obligations.StepKeepsLegal : Prop := ∀ s t, Legal s → step s = .next t → Legal t

/-- No legal state is stuck: its step answers a next state, whoever moves. -/
def Obligations.LegalStatesStep : Prop := ∀ s, Legal s → ∃ t, step s = .next t

/-- 10_state.md R37, 70_reset_and_hazards.md R293: no step changes the build, and while an operation runs no step but a
block reset changes a host register or a byte of IMG. -/
def Obligations.OperationInputsAreFixed : Prop :=
  ∀ s t, step s = .next t →
    t.cfg = s.cfg ∧
    (s.st.busy = true → (∀ p, (takeTurn s).1 ≠ .reset p) →
      t.regs = s.regs ∧ ∀ a, imgByte t a = imgByte s a)

/-- 10_state.md R24: every micro-step of a busy block in a legal state records exactly one event, but for the encoder's,
which record none. The turn of an idle block, which waits for a CMD write (70_reset_and_hazards.md R292), changes nothing
but the turn taken (log 2, the model's choice). -/
def Obligations.MicroStepRecordsOneEvent : Prop :=
  (∀ s t, Legal s → s.st.busy = true → (takeTurn s).1 = .block → step s = .next t →
    ((¬ (s.st.op = 2 ∧ s.st.step = 2)) → ∃ e, t.trace = s.trace ++ [e]) ∧
    ((s.st.op = 2 ∧ s.st.step = 2) → t.trace = s.trace)) ∧
  (∀ s : State, s.st.busy = false → s.env.turns = [] → step s = .next s) ∧
  ∀ (s : State) (rest : List Turn), s.st.busy = false → s.env.turns = .block :: rest →
    step s = .next { s with env := { s.env with turns := rest } }

/-- 42_state_machine.md R175, R177: only a block reset leaves Released or Absent, and no line is driven there. -/
def Obligations.TerminalStates : Prop :=
  ∀ s t, Legal s → s.st.state = .released ∨ s.st.state = .absent → step s = .next t →
    (∀ p, (takeTurn s).1 ≠ .reset p) →
    t.st.state = s.st.state ∧ t.lines = { enable := .z, reset := .z, mode := .z, indicator := .z, sclk := .z, mosi := .z }

/-- 42_state_machine.md R179: from Uninitialized, Asleep or Faulted only a WAKE or a TEARDOWN can start; DISPLAY, CLEAR
and SLEEP start from Awake only; nothing starts from Released or Absent. -/
def Obligations.OperationsStartWhereAccepted : Prop :=
  ∀ s t, step s = .next t → s.st.busy = false → t.st.busy = true →
    (∃ v rest, s.env.turns = .host (.wr 0x00 v) :: rest ∧ t.st.op = v.extractLsb' 0 3) ∧
    (s.st.state = .uninitialized ∨ s.st.state = .asleep ∨ s.st.state = .faulted → t.st.op = 1 ∨ t.st.op = 5) ∧
    (t.st.op = 2 ∨ t.st.op = 3 ∨ t.st.op = 4 → s.st.state = .awake) ∧
    s.st.state ≠ .released ∧ s.st.state ≠ .absent ∧
    (t.st.op = 1 ∨ t.st.op = 2 ∨ t.st.op = 3 ∨ t.st.op = 4 ∨ t.st.op = 5)

/-- 42_state_machine.md R169: from its acceptance to its end, a running operation shows BUSY 1, ERR 0 and its own OP in
STATUS, and STATE Displaying in a DISPLAY, Clearing in a CLEAR, and the source state in the others. -/
def Obligations.RunningStatusIsFixed : Prop :=
  ∀ s t, Legal s → step s = .next t → t.st.busy = true → (∀ p, (takeTurn s).1 ≠ .reset p) →
    t.st.err = .none ∧ (t.st.op = 2 → t.st.state = .displaying) ∧ (t.st.op = 3 → t.st.state = .clearing) ∧
    (t.st.op ≠ 2 → t.st.op ≠ 3 → t.st.state = s.st.state) ∧ (s.st.busy = true → t.st.op = s.st.op) ∧
    (s.st.busy = false → ∃ v rest, s.env.turns = .host (.wr 0x00 v) :: rest ∧ t.st.op = v.extractLsb' 0 3)

/-- 42_state_machine.md R166, R167, 40_bus_transport.md R125: an operation ends (BUSY falls without a reset) only by
recording its OpDone, in Awake, Asleep or Released with ERR 0, or in Faulted with BusFailure or DeviceUnresponsive, and
with ENABLE not low. -/
def Obligations.OperationsEndWithOpDone : Prop :=
  ∀ s t, Legal s → step s = .next t → s.st.busy = true → t.st.busy = false → (∀ p, (takeTurn s).1 ≠ .reset p) →
    t.trace = s.trace ++ [.opDone s.st.op t.st.err] ∧ t.st.op = s.st.op ∧ t.lines.enable ≠ .lo ∧
    ((t.st.err = .none ∧ (t.st.state = .awake ∨ t.st.state = .asleep ∨ t.st.state = .released)) ∨
      (t.st.state = .faulted ∧ (t.st.err = .busFailure ∨ t.st.err = .deviceUnresponsive)))

/-- A step runs the decoded instruction: a host write to CMD runs the word's, and a block micro-step at a panel
command runs the one of the opcode byte its step list holds (10_state.md R23, R31); a step adds only the removal of the
turn taken. -/
def Obligations.StepRunsTheDecodedInstruction : Prop :=
  (∀ (s : State) (v : Word) (rest : List Turn), s.env.turns = .host (.wr 0x00 v) :: rest →
    step s = exec (decodeHost v) { s with env := { s.env with turns := rest } }) ∧
  (∀ (s : State) (c : Byte) (i : Instr), s.env.turns = [] → s.st.busy = true →
    stepAt s.st.op s.st.step = some (.send c) → decodePanel c = .ok i → step s = exec i s) ∧
  (∀ (s : State) (c : Byte) (i : Instr) (rest : List Turn), s.env.turns = .block :: rest → s.st.busy = true →
    stepAt s.st.op s.st.step = some (.send c) → decodePanel c = .ok i →
    step s = exec i { s with env := { s.env with turns := rest } })

/-- The model's placing of an instruction (log 14, the model's choice): the step after `withFetchWord` runs the CMD word,
from the state itself, or the panel command of the opcode byte, from the position of a step that sends it. -/
def Obligations.PlacedInstructionRunsNext : Prop :=
  (∀ (s : State) (w : Nat), step (s.withFetchWord 32 w) = exec (decodeHost (BitVec.ofNat 32 w)) s) ∧
  (∀ (s : State) (b : Byte) (i : Instr), decodePanel b = .ok i →
    ∃ op n, stepAt op n = some (.send b) ∧
      step (s.withFetchWord 8 b.toNat) =
        exec i { s with st := { s.st with busy := true, op := op, step := n, sub := .zero } })

/-- 42_state_machine.md R163, R171, R172, R173: the step lists hold the opcodes at the numbered steps the spec gives,
and nothing sends in a TEARDOWN or under a reserved code. -/
def Obligations.StepListsSendTheOpcodes : Prop :=
  ((List.range 17).map (stepAt 1)).filterMap (fun x => match x with | some (.send c) => some c | _ => none) =
    [0x01#8, 0x06#8, 0x04#8, 0x00#8, 0x30#8, 0x61#8, 0x82#8, 0x50#8, 0x20#8, 0x21#8, 0x22#8, 0x23#8, 0x24#8] ∧
  stepAt 1 1 = some .resetPulse ∧ stepAt 1 2 = some (.send 0x01) ∧ stepAt 1 14 = some (.send 0x24) ∧
  stepAt 1 15 = some (.complete .awake) ∧ stepAt 2 2 = some .encode ∧ stepAt 2 3 = some (.send 0x10) ∧
  stepAt 2 4 = some (.send 0x13) ∧ stepAt 2 5 = some (.send 0x12) ∧ stepAt 2 6 = some (.complete .awake) ∧
  stepAt 3 2 = some (.send 0x10) ∧ stepAt 3 3 = some (.send 0x13) ∧ stepAt 3 4 = some (.send 0x12) ∧
  stepAt 4 1 = some (.send 0x02) ∧ stepAt 4 2 = some (.send 0x07) ∧ stepAt 4 3 = some (.complete .asleep) ∧
  (∀ n c, stepAt 5 n ≠ some (.send c)) ∧ (∀ n, stepAt 0 n = none ∧ stepAt 6 n = none ∧ stepAt 7 n = none)
end

