-- ==== Sys2Proof/Laws/State.lean ====
section
/-! SUPPORT. One lemma per field of State and per named update, each true by unfolding, so that no later proof unfolds a
record update. -/

namespace Sys2Proof.Laws

open Sys2Proof.Machine

/-! ### emit -/

@[simp] theorem emit_cfg (e : Event) (s : State) : (emit e s).cfg = s.cfg := rfl
@[simp] theorem emit_st (e : Event) (s : State) : (emit e s).st = s.st := rfl
@[simp] theorem emit_regs (e : Event) (s : State) : (emit e s).regs = s.regs := rfl
@[simp] theorem emit_lines (e : Event) (s : State) : (emit e s).lines = s.lines := rfl
@[simp] theorem emit_ser (e : Event) (s : State) : (emit e s).ser = s.ser := rfl
@[simp] theorem emit_ram (e : Event) (s : State) : (emit e s).ram = s.ram := rfl
@[simp] theorem emit_env (e : Event) (s : State) : (emit e s).env = s.env := rfl
@[simp] theorem emit_hostData (e : Event) (s : State) : (emit e s).hostData = s.hostData := rfl
@[simp] theorem emit_trace (e : Event) (s : State) : (emit e s).trace = s.trace ++ [e] := rfl

/-! ### drive -/

@[simp] theorem drive_cfg (ln : Line) (v : Level) (s : State) : (drive ln v s).cfg = s.cfg := rfl
@[simp] theorem drive_st (ln : Line) (v : Level) (s : State) : (drive ln v s).st = s.st := rfl
@[simp] theorem drive_regs (ln : Line) (v : Level) (s : State) : (drive ln v s).regs = s.regs := rfl
@[simp] theorem drive_lines (ln : Line) (v : Level) (s : State) : (drive ln v s).lines = s.lines.set ln v := rfl
@[simp] theorem drive_ser (ln : Line) (v : Level) (s : State) : (drive ln v s).ser = s.ser := rfl
@[simp] theorem drive_ram (ln : Line) (v : Level) (s : State) : (drive ln v s).ram = s.ram := rfl
@[simp] theorem drive_env (ln : Line) (v : Level) (s : State) : (drive ln v s).env = s.env := rfl
@[simp] theorem drive_hostData (ln : Line) (v : Level) (s : State) : (drive ln v s).hostData = s.hostData := rfl
@[simp] theorem drive_trace (ln : Line) (v : Level) (s : State) : (drive ln v s).trace = s.trace ++ [.lineSet ln v] := rfl

/-! ### delay -/

@[simp] theorem delay_cfg (t : Hold) (s : State) : (delay t s).cfg = s.cfg := rfl
@[simp] theorem delay_st (t : Hold) (s : State) : (delay t s).st = s.st := rfl
@[simp] theorem delay_regs (t : Hold) (s : State) : (delay t s).regs = s.regs := rfl
@[simp] theorem delay_lines (t : Hold) (s : State) : (delay t s).lines = s.lines := rfl
@[simp] theorem delay_ser (t : Hold) (s : State) : (delay t s).ser = s.ser := rfl
@[simp] theorem delay_ram (t : Hold) (s : State) : (delay t s).ram = s.ram := rfl
@[simp] theorem delay_env (t : Hold) (s : State) : (delay t s).env = s.env := rfl
@[simp] theorem delay_hostData (t : Hold) (s : State) : (delay t s).hostData = s.hostData := rfl
@[simp] theorem delay_trace (t : Hold) (s : State) : (delay t s).trace = s.trace ++ [.delay t] := rfl

/-! ### moveTo -/

@[simp] theorem moveTo_cfg (m : Micro) (s : State) : (moveTo m s).cfg = s.cfg := rfl
@[simp] theorem moveTo_st (m : Micro) (s : State) : (moveTo m s).st = { s.st with sub := m } := rfl
@[simp] theorem moveTo_regs (m : Micro) (s : State) : (moveTo m s).regs = s.regs := rfl
@[simp] theorem moveTo_lines (m : Micro) (s : State) : (moveTo m s).lines = s.lines := rfl
@[simp] theorem moveTo_ser (m : Micro) (s : State) : (moveTo m s).ser = s.ser := rfl
@[simp] theorem moveTo_ram (m : Micro) (s : State) : (moveTo m s).ram = s.ram := rfl
@[simp] theorem moveTo_env (m : Micro) (s : State) : (moveTo m s).env = s.env := rfl
@[simp] theorem moveTo_hostData (m : Micro) (s : State) : (moveTo m s).hostData = s.hostData := rfl
@[simp] theorem moveTo_trace (m : Micro) (s : State) : (moveTo m s).trace = s.trace := rfl

/-! ### nextStep -/

@[simp] theorem nextStep_cfg (s : State) : (nextStep s).cfg = s.cfg := rfl
@[simp] theorem nextStep_st (s : State) : (nextStep s).st = { s.st with step := s.st.step + 1, sub := .zero } := rfl
@[simp] theorem nextStep_regs (s : State) : (nextStep s).regs = s.regs := rfl
@[simp] theorem nextStep_lines (s : State) : (nextStep s).lines = s.lines := rfl
@[simp] theorem nextStep_ser (s : State) : (nextStep s).ser = s.ser := rfl
@[simp] theorem nextStep_ram (s : State) : (nextStep s).ram = s.ram := rfl
@[simp] theorem nextStep_env (s : State) : (nextStep s).env = s.env := rfl
@[simp] theorem nextStep_hostData (s : State) : (nextStep s).hostData = s.hostData := rfl
@[simp] theorem nextStep_trace (s : State) : (nextStep s).trace = s.trace := rfl

/-! ### raise -/

@[simp] theorem raise_cfg (e : Err) (s : State) : (raise e s).cfg = s.cfg := rfl
@[simp] theorem raise_st (e : Err) (s : State) : (raise e s).st = { s.st with sub := .abort e } := rfl
@[simp] theorem raise_regs (e : Err) (s : State) : (raise e s).regs = s.regs := rfl
@[simp] theorem raise_lines (e : Err) (s : State) : (raise e s).lines = s.lines := rfl
@[simp] theorem raise_ser (e : Err) (s : State) : (raise e s).ser = s.ser := rfl
@[simp] theorem raise_ram (e : Err) (s : State) : (raise e s).ram = s.ram := rfl
@[simp] theorem raise_env (e : Err) (s : State) : (raise e s).env = s.env := rfl
@[simp] theorem raise_hostData (e : Err) (s : State) : (raise e s).hostData = s.hostData := rfl
@[simp] theorem raise_trace (e : Err) (s : State) : (raise e s).trace = s.trace := rfl

/-! ### complete -/

@[simp] theorem complete_cfg (p : PanelState) (s : State) : (complete p s).cfg = s.cfg := rfl
@[simp] theorem complete_st (p : PanelState) (s : State) : (complete p s).st = { s.st with state := p, err := .none, busy := false, step := 0, sub := .zero } := rfl
@[simp] theorem complete_regs (p : PanelState) (s : State) : (complete p s).regs = s.regs := rfl
@[simp] theorem complete_lines (p : PanelState) (s : State) : (complete p s).lines = s.lines := rfl
@[simp] theorem complete_ser (p : PanelState) (s : State) : (complete p s).ser = s.ser := rfl
@[simp] theorem complete_ram (p : PanelState) (s : State) : (complete p s).ram = s.ram := rfl
@[simp] theorem complete_env (p : PanelState) (s : State) : (complete p s).env = s.env := rfl
@[simp] theorem complete_hostData (p : PanelState) (s : State) : (complete p s).hostData = s.hostData := rfl
@[simp] theorem complete_trace (p : PanelState) (s : State) : (complete p s).trace = s.trace ++ [.opDone s.st.op .none] := rfl

/-! ### abort -/

@[simp] theorem abort_cfg (e : Err) (s : State) : (abort e s).cfg = s.cfg := rfl
@[simp] theorem abort_st (e : Err) (s : State) : (abort e s).st = { s.st with state := .faulted, err := e, busy := false, step := 0, sub := .zero } := rfl
@[simp] theorem abort_regs (e : Err) (s : State) : (abort e s).regs = s.regs := rfl
@[simp] theorem abort_lines (e : Err) (s : State) : (abort e s).lines = s.lines := rfl
@[simp] theorem abort_ser (e : Err) (s : State) : (abort e s).ser = s.ser := rfl
@[simp] theorem abort_ram (e : Err) (s : State) : (abort e s).ram = s.ram := rfl
@[simp] theorem abort_env (e : Err) (s : State) : (abort e s).env = s.env := rfl
@[simp] theorem abort_hostData (e : Err) (s : State) : (abort e s).hostData = s.hostData := rfl
@[simp] theorem abort_trace (e : Err) (s : State) : (abort e s).trace = s.trace ++ [.opDone s.st.op e] := rfl

/-! ### reject -/

@[simp] theorem reject_cfg (op : OpCode) (e : Err) (s : State) : (reject op e s).cfg = s.cfg := rfl
@[simp] theorem reject_st (op : OpCode) (e : Err) (s : State) : (reject op e s).st = { s.st with op := op, err := e } := rfl
@[simp] theorem reject_regs (op : OpCode) (e : Err) (s : State) : (reject op e s).regs = s.regs := rfl
@[simp] theorem reject_lines (op : OpCode) (e : Err) (s : State) : (reject op e s).lines = s.lines := rfl
@[simp] theorem reject_ser (op : OpCode) (e : Err) (s : State) : (reject op e s).ser = s.ser := rfl
@[simp] theorem reject_ram (op : OpCode) (e : Err) (s : State) : (reject op e s).ram = s.ram := rfl
@[simp] theorem reject_env (op : OpCode) (e : Err) (s : State) : (reject op e s).env = s.env := rfl
@[simp] theorem reject_hostData (op : OpCode) (e : Err) (s : State) : (reject op e s).hostData = s.hostData := rfl
@[simp] theorem reject_trace (op : OpCode) (e : Err) (s : State) : (reject op e s).trace = s.trace ++ [.opDone op e] := rfl

/-! ### releaseLines -/

@[simp] theorem releaseLines_cfg (s : State) : (releaseLines s).cfg = s.cfg := rfl
@[simp] theorem releaseLines_st (s : State) : (releaseLines s).st = s.st := rfl
@[simp] theorem releaseLines_regs (s : State) : (releaseLines s).regs = s.regs := rfl
@[simp] theorem releaseLines_lines (s : State) : (releaseLines s).lines = allReleased := rfl
@[simp] theorem releaseLines_ser (s : State) : (releaseLines s).ser = s.ser := rfl
@[simp] theorem releaseLines_ram (s : State) : (releaseLines s).ram = s.ram := rfl
@[simp] theorem releaseLines_env (s : State) : (releaseLines s).env = s.env := rfl
@[simp] theorem releaseLines_hostData (s : State) : (releaseLines s).hostData = s.hostData := rfl
@[simp] theorem releaseLines_trace (s : State) : (releaseLines s).trace = s.trace ++ [.release] := rfl

/-! ### Lines.set, one lemma per line -/

@[simp] theorem set_enable (l : Lines) (v : Level) : l.set .enable v = { l with enable := v } := rfl
@[simp] theorem set_reset (l : Lines) (v : Level) : l.set .reset v = { l with reset := v } := rfl
@[simp] theorem set_mode (l : Lines) (v : Level) : l.set .mode v = { l with mode := v } := rfl
@[simp] theorem set_indicator (l : Lines) (v : Level) : l.set .indicator v = { l with indicator := v } := rfl

/-! ### The draws change the environment only -/

@[simp] theorem drawBusy_cfg (s : State) : (drawBusy s).2.cfg = s.cfg := by unfold drawBusy; split <;> rfl
@[simp] theorem drawBusy_st (s : State) : (drawBusy s).2.st = s.st := by unfold drawBusy; split <;> rfl
@[simp] theorem drawBusy_regs (s : State) : (drawBusy s).2.regs = s.regs := by unfold drawBusy; split <;> rfl
@[simp] theorem drawBusy_lines (s : State) : (drawBusy s).2.lines = s.lines := by unfold drawBusy; split <;> rfl
@[simp] theorem drawBusy_ser (s : State) : (drawBusy s).2.ser = s.ser := by unfold drawBusy; split <;> rfl
@[simp] theorem drawBusy_ram (s : State) : (drawBusy s).2.ram = s.ram := by unfold drawBusy; split <;> rfl
@[simp] theorem drawBusy_hostData (s : State) : (drawBusy s).2.hostData = s.hostData := by unfold drawBusy; split <;> rfl
@[simp] theorem drawBusy_trace (s : State) : (drawBusy s).2.trace = s.trace := by unfold drawBusy; split <;> rfl
@[simp] theorem drawBusy_turns (s : State) : (drawBusy s).2.env.turns = s.env.turns := by unfold drawBusy; split <;> rfl
@[simp] theorem drawBusy_epoch (s : State) : (drawBusy s).2.env.epoch = s.env.epoch := by unfold drawBusy; split <;> rfl

/-- A listed draw is the one taken. -/
theorem drawBusy_listed (s : State) (v) (rest) (h : s.env.busyIn = v :: rest) :
    drawBusy s = (v, { s with env := { s.env with busyIn := rest } }) := by
  unfold drawBusy; rw [h]

@[simp] theorem drawBusErr_cfg (s : State) : (drawBusErr s).2.cfg = s.cfg := by unfold drawBusErr; split <;> rfl
@[simp] theorem drawBusErr_st (s : State) : (drawBusErr s).2.st = s.st := by unfold drawBusErr; split <;> rfl
@[simp] theorem drawBusErr_regs (s : State) : (drawBusErr s).2.regs = s.regs := by unfold drawBusErr; split <;> rfl
@[simp] theorem drawBusErr_lines (s : State) : (drawBusErr s).2.lines = s.lines := by unfold drawBusErr; split <;> rfl
@[simp] theorem drawBusErr_ser (s : State) : (drawBusErr s).2.ser = s.ser := by unfold drawBusErr; split <;> rfl
@[simp] theorem drawBusErr_ram (s : State) : (drawBusErr s).2.ram = s.ram := by unfold drawBusErr; split <;> rfl
@[simp] theorem drawBusErr_hostData (s : State) : (drawBusErr s).2.hostData = s.hostData := by unfold drawBusErr; split <;> rfl
@[simp] theorem drawBusErr_trace (s : State) : (drawBusErr s).2.trace = s.trace := by unfold drawBusErr; split <;> rfl
@[simp] theorem drawBusErr_turns (s : State) : (drawBusErr s).2.env.turns = s.env.turns := by unfold drawBusErr; split <;> rfl
@[simp] theorem drawBusErr_epoch (s : State) : (drawBusErr s).2.env.epoch = s.env.epoch := by unfold drawBusErr; split <;> rfl

/-- A listed draw is the one taken. -/
theorem drawBusErr_listed (s : State) (v) (rest) (h : s.env.busErrIn = v :: rest) :
    drawBusErr s = (v, { s with env := { s.env with busErrIn := rest } }) := by
  unfold drawBusErr; rw [h]

end Sys2Proof.Laws
end

