-- ==== Sys2Proof/Laws/Framer.lean ====
section
/-! SUPPORT. What a byte shift, a SEND's micro-step and a wait's micro-step can do, each said once. -/

namespace Sys2Proof.Laws

open Sys2Proof.Machine

/-- The levels (SCLK, MOSI) of one clock period that carries `bit`. -/
def periodLevels (bit : Bool) : List (Logic × Logic) :=
  [(.lo, Logic.ofBool bit), (.hi, Logic.ofBool bit), (.lo, Logic.ofBool bit)]

/-- The waveform of a byte, in closed form: eight periods, bit 7 first, then the idle levels. -/
theorem shiftOut_wire (b : Byte) (r : Serial) :
    (shiftOut b r).wire =
      periodLevels (b.getLsbD 7) ++ periodLevels (b.getLsbD 6) ++ periodLevels (b.getLsbD 5)
        ++ periodLevels (b.getLsbD 4) ++ periodLevels (b.getLsbD 3) ++ periodLevels (b.getLsbD 2)
        ++ periodLevels (b.getLsbD 1) ++ periodLevels (b.getLsbD 0) ++ [(.lo, .lo)] := by
  simp [shiftOut, bitCycles, bitCycle, periodLevels]

@[simp] theorem shiftOut_shiftReg (b : Byte) (r : Serial) : (shiftOut b r).shiftReg = 0 := by
  simp only [shiftOut, bitCycles, bitCycle]
  ext i hi
  simp

@[simp] theorem shiftOut_bitCount (b : Byte) (r : Serial) : (shiftOut b r).bitCount = 0 := by
  simp [shiftOut, bitCycles, bitCycle]

@[simp] theorem shiftOut_busySync (b : Byte) (r : Serial) : (shiftOut b r).busySync = r.busySync := rfl

/-- After a byte the serial pair is idle again. -/
@[simp] theorem settleSerial_shiftOut (l : Lines) (b : Byte) (r : Serial) :
    l.settleSerial (shiftOut b r).wire = { l with sclk := .lo, mosi := .lo } := by
  rw [shiftOut_wire]
  simp [Lines.settleSerial, Logic.level]

/-- The state after `Shift(b)`, but for its draw. -/
def shifted (b : Byte) (s : State) : State :=
  { s with
    ser := shiftOut b s.ser
    lines := { s.lines with sclk := .lo, mosi := .lo }
    trace := s.trace ++ [.byte s.lines.mode b] }

theorem shift_eq (b : Byte) (s : State) : shift b s = drawBusErr (shifted b s) := by
  simp [shift, shifted, emit]

/-- `Shift(b)` then `next`: the byte is recorded either way; the draw decides between going on and a bus failure. -/
theorem shiftThen_eq (b : Byte) (next : Micro) (s : State) :
    shiftThen b next s =
      moveTo (if (drawBusErr (shifted b s)).1 then .busFail else next) (drawBusErr (shifted b s)).2 := by
  simp only [shiftThen, shift_eq]
  split <;> simp_all

/-- Everything a wait's micro-step can do. -/
theorem waitStep_cases {s t : State} (h : waitStep s = some t) :
    (s.st.sub = .indLo ∧ t = moveTo .settle (drive .indicator .lo s)) ∨
    (s.st.sub = .settle ∧ t = moveTo .sample (delay .tSettle { s with st := { s.st with polls := 0 } })) ∨
    (s.st.sub = .sample ∧ t = afterSample (sampleBusy s)) ∨
    (s.st.sub = .toggle ∧ t = moveTo .pollDelay (drive .indicator (toggled s.lines.indicator) s)) ∨
    (s.st.sub = .pollDelay ∧ t = moveTo .sample (delay .tSettle s)) ∨
    (s.st.sub = .timedOut ∧ t = raise .deviceUnresponsive (drive .indicator .hi s)) ∨
    (s.st.sub = .readyHi ∧ t = moveTo .lastDelay (drive .indicator .hi s)) ∨
    (s.st.sub = .lastDelay ∧ t = nextStep (delay .tSettle s)) := by
  unfold waitStep at h
  split at h <;> simp_all

/-- Everything what follows a sample can do. -/
theorem afterSample_cases (s : State) :
    (readsReady s = true ∧ afterSample s = moveTo .readyHi s) ∨
    (readsReady s = false ∧ budgetSpent s.regs (countPoll s.st.polls) = true ∧
      afterSample s = moveTo .timedOut { s with st := { s.st with polls := countPoll s.st.polls } }) ∨
    (readsReady s = false ∧ budgetSpent s.regs (countPoll s.st.polls) = false ∧
      afterSample s = moveTo .toggle { s with st := { s.st with polls := countPoll s.st.polls } }) := by
  unfold afterSample
  cases h : readsReady s
  · cases h' : budgetSpent s.regs (countPoll s.st.polls) <;> simp [h']
  · simp

/-- Everything a SEND's micro-step can do. -/
theorem send_cases {c : Byte} {src : DataSource} {s t : State} (h : send c src s = .next t) :
    (s.st.sub = .zero ∧ t = moveTo .enableLo (drive .mode .lo s)) ∨
    (s.st.sub = .enableLo ∧ t = moveTo (.byte 0) (drive .enable .lo s)) ∨
    (s.st.sub = .byte 0 ∧ t = shiftThen c .modeHi s) ∨
    (s.st.sub = .modeHi ∧ t = moveTo (afterData 0 (src.length s.cfg)) (drive .mode .hi s)) ∨
    (∃ k, s.st.sub = .byte (k + 1) ∧ k < src.length s.cfg ∧
      t = shiftThen (src.byteAt s k) (afterData (k + 1) (src.length s.cfg)) s) ∨
    (s.st.sub = .enableHi ∧ t = moveTo .indLo (drive .enable .hi s)) ∨
    (s.st.sub = .busFail ∧ t = raise .busFailure (drive .enable .hi s)) ∨
    (∃ e, s.st.sub = .abort e ∧ t = abort e s) ∨
    waitStep s = some t := by
  unfold send at h
  split at h
  case h_5 k hk =>
    split at h
    · rename_i hlt
      simp only [Host.Outcome.next.injEq] at h
      exact .inr (.inr (.inr (.inr (.inl ⟨k, hk, hlt, h.symm⟩))))
    · cases h
  case h_11 =>
    split at h
    · simp_all
    · cases h
  all_goals simp_all

end Sys2Proof.Laws
end

