-- ==== Sys2Proof/Laws/Memory.lean ====
section
/-! SUPPORT. The laws of a byte memory: a read after a write to the same index gives the byte written, a write leaves
every other index alone, and every operation keeps the canonical form. -/

namespace Sys2Proof.Laws

open Sys2Proof.Machine

theorem read?_write_same (m : Memory) (i : Nat) (v : Byte) : (m.write i v).read? i = some v := by
  induction m with
  | nil => simp [Memory.write, Memory.read?]
  | cons c rest ih =>
    obtain ⟨a, b⟩ := c
    simp only [Memory.write]
    split
    · simp [Memory.read?]
    · split
      · simp [Memory.read?]
      · rename_i h
        simp [Memory.read?, Ne.symm h, ih]

theorem read?_write_other (m : Memory) (i j : Nat) (v : Byte) (h : j ≠ i) :
    (m.write i v).read? j = m.read? j := by
  induction m with
  | nil => simp [Memory.write, Memory.read?, Ne.symm h]
  | cons c rest ih =>
    obtain ⟨a, b⟩ := c
    simp only [Memory.write]
    split
    · simp [Memory.read?, Ne.symm h]
    · split
      · rename_i e
        subst e
        simp [Memory.read?, Ne.symm h]
      · simp [Memory.read?, ih]

theorem risesFrom_write (m : Memory) (lo i : Nat) (v : Byte) (hlo : lo ≤ i) (hm : m.risesFrom lo = true) :
    (m.write i v).risesFrom lo = true := by
  induction m generalizing lo with
  | nil => simpa [Memory.write, Memory.risesFrom] using hlo
  | cons c rest ih =>
    obtain ⟨a, b⟩ := c
    simp only [Memory.risesFrom, Bool.and_eq_true, decide_eq_true_eq] at hm
    simp only [Memory.write]
    split
    · rename_i hia
      simp only [Memory.risesFrom, Bool.and_eq_true, decide_eq_true_eq]
      exact ⟨hlo, hia, hm.2⟩
    · split
      · rename_i e
        subst e
        simpa [Memory.risesFrom] using hm
      · simp only [Memory.risesFrom, Bool.and_eq_true, decide_eq_true_eq]
        exact ⟨hm.1, ih (a + 1) (by omega) hm.2⟩

/-- A write keeps the canonical form. -/
theorem wf_write (m : Memory) (i : Nat) (v : Byte) (h : m.wf = true) : (m.write i v).wf = true :=
  risesFrom_write m 0 i v (Nat.zero_le i) h

/-- A write inside the range keeps the range. -/
theorem below_write (m : Memory) (n i : Nat) (v : Byte) (hi : i < n) (h : m.below n = true) :
    (m.write i v).below n = true := by
  induction m with
  | nil => simpa [Memory.write, Memory.below] using hi
  | cons c rest ih =>
    obtain ⟨a, b⟩ := c
    simp only [Memory.below, List.all_cons, Bool.and_eq_true, decide_eq_true_eq] at h ih
    simp only [Memory.write]
    split
    · simp [Memory.below, hi, h.1, h.2]
    · split
      · simp [Memory.below, hi, h.2]
      · simp only [Memory.below, List.all_cons, Bool.and_eq_true, decide_eq_true_eq]
        exact ⟨h.1, ih h.2⟩

/-- Reading a space after a write to it. -/
theorem readByte_write (sp : Space) (e : Nat) (m : Memory) (i j : Nat) (v : Byte) :
    readByte sp e (m.write i v) j = if j = i then v else readByte sp e m j := by
  unfold readByte
  split
  · rename_i h
    rw [h, read?_write_same]
    rfl
  · rename_i h
    rw [read?_write_other m i j v h]

end Sys2Proof.Laws
end

