-- ==== Sys2Proof/Laws/Panel.lean ====
section
/-! SUPPORT. What an event can do to the cutting of a trace and to an observer of the panel, each said once. -/

namespace Sys2Proof.Laws

open Sys2Proof.Machine

theorem logFrom_cons (en : Level) (cur : Option Transaction) (e : Event) (rest : List Event) :
    logFrom en cur (e :: rest) =
      (Cut.next { enable := en, current := cur } e).1.toList ++
        logFrom (Cut.next { enable := en, current := cur } e).2.enable
          (Cut.next { enable := en, current := cur } e).2.current rest := rfl

/-- Watching two lists of events is watching the one, then the other. -/
theorem seeAll_append (c : Config) (w : PanelWatch) (a b : List Event) :
    w.seeAll c (a ++ b) = (w.seeAll c a).seeAll c b := by
  simp [PanelWatch.seeAll]

@[simp] theorem seeAll_nil (c : Config) (w : PanelWatch) : w.seeAll c [] = w := rfl
@[simp] theorem seeAll_cons (c : Config) (w : PanelWatch) (e : Event) (rest : List Event) :
    w.seeAll c (e :: rest) = (w.see c e).seeAll c rest := rfl

/-- The events of a wait, and MODE, say nothing of the panel. -/
@[simp] theorem see_mode (c : Config) (w : PanelWatch) (l : Level) : w.see c (.lineSet .mode l) = w := rfl
@[simp] theorem see_indicator (c : Config) (w : PanelWatch) (l : Level) : w.see c (.lineSet .indicator l) = w := rfl
@[simp] theorem see_delay (c : Config) (w : PanelWatch) (t : Hold) : w.see c (.delay t) = w := rfl
@[simp] theorem see_busySample (c : Config) (w : PanelWatch) (v : Logic) : w.see c (.busySample v) = w := rfl

/-- ENABLE falling frames what follows. -/
theorem see_enableLo (c : Config) (w : PanelWatch) :
    w.see c (.lineSet .enable .lo) = { w with cut := { w.cut with enable := .lo } } := rfl

/-- A data byte joins the open record. -/
theorem see_data (c : Config) (v : PanelView) (en : Level) (t : Transaction) (d : Byte) :
    PanelWatch.see c { cut := { enable := en, current := some t }, panel := v } (.byte .hi d) =
      { cut := { enable := en, current := some { t with data := t.data ++ [d] } }, panel := v } := rfl

/-- A command byte opens a record and begins its frame; a record still open reaches the panel first. -/
theorem see_command (c : Config) (v : PanelView) (cur : Option Transaction) (cmd : Byte) :
    PanelWatch.see c { cut := { enable := .lo, current := cur }, panel := v } (.byte .lo cmd) =
      { cut := { enable := .lo, current := some { cmd := cmd, data := [] } }
        panel := (cur.elim v (v.receive c)).begin cmd } := rfl

/-- What a frame makes unknown at its command byte, its end settles: a whole transaction is received as if at once. -/
theorem receive_begin (c : Config) (v : PanelView) (t : Transaction) : (v.begin t.cmd).receive c t = v.receive c t := by
  unfold PanelView.begin
  split
  · rename_i h; simp [PanelView.receive, h]
  · split
    · rename_i h; simp [PanelView.receive, h]
    · split
      · rename_i h; simp [PanelView.receive, h, PanelView.planes]
      · rfl

/-- A command outside the 18 leaves nothing known. -/
theorem receive_unknownOpcode (c : Config) (v : PanelView) (t : Transaction)
    (h : decodePanel t.cmd = .error (.unknownOpcode t.cmd)) : v.receive c t = PanelView.unknown := by
  have hne : ∀ b, decodePanel b ≠ .error (.unknownOpcode b) → t.cmd ≠ b := fun b hb e => hb (e ▸ h)
  unfold PanelView.receive
  rw [if_neg (hne _ (by decide)), if_neg (hne _ (by decide)), if_neg (hne _ (by decide)), if_neg (hne _ (by decide)),
    if_neg (hne _ (by decide)), h]

/-- ENABLE rising hands the open record to the panel. -/
theorem see_enableHi (c : Config) (v : PanelView) (en : Level) (t : Transaction) :
    PanelWatch.see c { cut := { enable := en, current := some t }, panel := v } (.lineSet .enable .hi) =
      { cut := { enable := .hi, current := none }, panel := v.receive c t } := rfl

/-- After an abort, a block reset or the start of a RESET pulse nothing is known of the panel. -/
theorem observe_busFailure (v : PanelView) (op : OpCode) : v.observe (.opDone op .busFailure) = PanelView.unknown := rfl
theorem observe_deviceUnresponsive (v : PanelView) (op : OpCode) :
    v.observe (.opDone op .deviceUnresponsive) = PanelView.unknown := rfl
theorem observe_blockReset (v : PanelView) (p : Bool) : v.observe (.blockReset p) = PanelView.unknown := rfl
theorem observe_resetLo (v : PanelView) : v.observe (.lineSet .reset .lo) = PanelView.unknown := rfl

end Sys2Proof.Laws
end

