-- ==== Sys2Proof/Laws/PerInstr.lean ====
section
/-! SUPPORT. What holds of every instruction as syntax, one lemma per constructor: its encoding has the width, and the
fixed bits, of its row of the opcode table. -/

namespace Sys2Proof.Laws

/-- No two rows of one width of the opcode table can match one word (30_encoding.md R91, R94). -/
theorem tableRows_disjoint (i j : Instr) (w : Nat) (hi : w &&& (tableRow i).mask = (tableRow i).pattern)
    (hj : w &&& (tableRow j).mask = (tableRow j).pattern) (hn : (tableRow i).nbits = (tableRow j).nbits) :
    tableRow i = tableRow j := by
  cases i <;> cases j <;> simp_all [tableRow]

namespace TableRow

/-- An instruction's encoding is of its row's width and matches its row. -/
def Statement (i : Instr) : Prop :=
  (encode i).width = (tableRow i).nbits ∧ (encode i).bits &&& (tableRow i).mask = (tableRow i).pattern

/-- The low three bits of a CMD word are the code appended to the ignored bits. -/
theorem host_bits (g : BitVec 29) (op : BitVec 3) : (g ++ op).toNat &&& 7 = op.toNat := by
  have h : (g ++ op).toNat &&& 7 = ((g ++ op).extractLsb' 0 3).toNat := by
    rw [BitVec.extractLsb'_toNat, Nat.shiftRight_zero]
    exact Nat.and_two_pow_sub_one_eq_mod _ 3
  rw [h, BitVec.extractLsb'_append_eq_right]

theorem wake (g : BitVec 29) : Statement (.wake g) := ⟨rfl, host_bits g _⟩
theorem display (g : BitVec 29) : Statement (.display g) := ⟨rfl, host_bits g _⟩
theorem clear (g : BitVec 29) : Statement (.clear g) := ⟨rfl, host_bits g _⟩
theorem sleep (g : BitVec 29) : Statement (.sleep g) := ⟨rfl, host_bits g _⟩
theorem teardown (g : BitVec 29) : Statement (.teardown g) := ⟨rfl, host_bits g _⟩
theorem reservedOp0 (g : BitVec 29) : Statement (.reservedOp0 g) := ⟨rfl, host_bits g _⟩
theorem reservedOp6 (g : BitVec 29) : Statement (.reservedOp6 g) := ⟨rfl, host_bits g _⟩
theorem reservedOp7 (g : BitVec 29) : Statement (.reservedOp7 g) := ⟨rfl, host_bits g _⟩
theorem powerSettings : Statement .powerSettings := ⟨rfl, rfl⟩
theorem boosterSoftStart : Statement .boosterSoftStart := ⟨rfl, rfl⟩
theorem powerOn : Statement .powerOn := ⟨rfl, rfl⟩
theorem panelSettings : Statement .panelSettings := ⟨rfl, rfl⟩
theorem pll : Statement .pll := ⟨rfl, rfl⟩
theorem resolution : Statement .resolution := ⟨rfl, rfl⟩
theorem vcomDc : Statement .vcomDc := ⟨rfl, rfl⟩
theorem vcomInterval : Statement .vcomInterval := ⟨rfl, rfl⟩
theorem lutVcom : Statement .lutVcom := ⟨rfl, rfl⟩
theorem lutWw : Statement .lutWw := ⟨rfl, rfl⟩
theorem lutBw : Statement .lutBw := ⟨rfl, rfl⟩
theorem lutWb : Statement .lutWb := ⟨rfl, rfl⟩
theorem lutBb : Statement .lutBb := ⟨rfl, rfl⟩
theorem dataOld : Statement .dataOld := ⟨rfl, rfl⟩
theorem dataNew : Statement .dataNew := ⟨rfl, rfl⟩
theorem refresh : Statement .refresh := ⟨rfl, rfl⟩
theorem powerOff : Statement .powerOff := ⟨rfl, rfl⟩
theorem deepSleep : Statement .deepSleep := ⟨rfl, rfl⟩

end TableRow

end Sys2Proof.Laws
end

