-- ==== Sys2Proof/Laws/Sequencer.lean ====
section
/-! SUPPORT. What the sequencer, the encoder and a write to CMD can do, each said once. -/

namespace Sys2Proof.Laws

open Sys2Proof.Machine

/-- A write to CMD is dropped, accepted or rejected (42_state_machine.md R160). -/
theorem hostCommand_cases (op : OpCode) (s : State) :
    (s.st.busy = true ∧ hostCommand op s = s) ∨
    (s.st.busy = false ∧ check s op = .none ∧ hostCommand op s = accept op s) ∨
    (s.st.busy = false ∧ check s op ≠ .none ∧ hostCommand op s = reject op (check s op) s) := by
  unfold hostCommand
  cases hb : s.st.busy
  · by_cases hc : check s op = .none <;> simp [hc]
  · simp

/-- What an accepted operation starts as: busy, no error, at step 1, or, in DISPLAY and CLEAR, in its transient state
at step 2. -/
theorem accept_wake (s : State) : accept 1#3 s =
    { s with st := { s.st with op := 1#3, busy := true, err := .none, step := 1, sub := .zero } } := rfl

theorem accept_display (s : State) : accept 2#3 s =
    { s with st := { s.st with
      op := 2#3, busy := true, err := .none, state := .displaying, step := 2, sub := .zero } } := rfl

theorem accept_clear (s : State) : accept 3#3 s =
    { s with st := { s.st with
      op := 3#3, busy := true, err := .none, state := .clearing, step := 2, sub := .zero } } := rfl

theorem accept_sleep (s : State) : accept 4#3 s =
    { s with st := { s.st with op := 4#3, busy := true, err := .none, step := 1, sub := .zero } } := rfl

theorem accept_teardown (s : State) : accept 5#3 s =
    { s with st := { s.st with op := 5#3, busy := true, err := .none, step := 1, sub := .zero } } := rfl

/-- An accepted operation is one of the five, in a state that accepts it; a DISPLAY has its image. -/
theorem check_none {s : State} {op : OpCode} (h : check s op = .none) :
    accepts s.st.state op = true ∧ reservedOp op = false ∧ (op = opDisplay → imageFits s = true) := by
  unfold check at h
  split at h
  · cases h
  · split at h
    · cases h
    · split at h
      · cases h
      · split at h
        · cases h
        · rename_i h1 h2 h3 h4
          simp_all

/-- Everything a micro-step of the reset pulse can do. -/
theorem pulseStep_cases {s t : State} (h : pulseStep s = .next t) :
    (pulseIndex s.st.sub = some 0 ∧ t = moveTo (.pulse 1) (drive .reset .lo s)) ∨
    (pulseIndex s.st.sub = some 1 ∧ t = moveTo (.pulse 2) (delay .tReset s)) ∨
    (pulseIndex s.st.sub = some 2 ∧ t = moveTo (.pulse 3) (drive .reset .hi s)) ∨
    (pulseIndex s.st.sub = some 3 ∧ t = moveTo (.pulse 4) (delay .tReset s)) ∨
    (pulseIndex s.st.sub = some 4 ∧ t = moveTo (.pulse 5) (drive .reset .lo s)) ∨
    (pulseIndex s.st.sub = some 5 ∧ t = moveTo (.pulse 6) (delay .tReset s)) ∨
    (pulseIndex s.st.sub = some 6 ∧ t = nextStep (drive .reset .hi s)) := by
  unfold pulseStep at h
  split at h <;> simp_all

@[simp] theorem encodeByte_st (n : Nat) (s : State) : (encodeByte n s).st = s.st := by
  unfold encodeByte; split <;> rfl
@[simp] theorem encodeByte_cfg (n : Nat) (s : State) : (encodeByte n s).cfg = s.cfg := by
  unfold encodeByte; split <;> rfl
@[simp] theorem encodeByte_regs (n : Nat) (s : State) : (encodeByte n s).regs = s.regs := by
  unfold encodeByte; split <;> rfl
@[simp] theorem encodeByte_lines (n : Nat) (s : State) : (encodeByte n s).lines = s.lines := by
  unfold encodeByte; split <;> rfl
@[simp] theorem encodeByte_ser (n : Nat) (s : State) : (encodeByte n s).ser = s.ser := by
  unfold encodeByte; split <;> rfl
@[simp] theorem encodeByte_env (n : Nat) (s : State) : (encodeByte n s).env = s.env := by
  unfold encodeByte; split <;> rfl
@[simp] theorem encodeByte_hostData (n : Nat) (s : State) : (encodeByte n s).hostData = s.hostData := by
  unfold encodeByte; split <;> rfl
@[simp] theorem encodeByte_trace (n : Nat) (s : State) : (encodeByte n s).trace = s.trace := by
  unfold encodeByte; split <;> rfl
@[simp] theorem encodeByte_img (n : Nat) (s : State) : (encodeByte n s).ram.img = s.ram.img := by
  unfold encodeByte; split <;> rfl

/-- Everything a micro-step of ENCODE can do. -/
theorem encodeStep_cases {s t : State} (h : encodeStep s = .next t) :
    ∃ n, encodeIndex s.st.sub = some n ∧
      ((n < s.cfg.npk + s.cfg.npl ∧ t = moveTo (.encode (n + 1)) (encodeByte n s)) ∨
        (n = s.cfg.npk + s.cfg.npl ∧ t = nextStep s)) := by
  unfold encodeStep at h
  split at h
  · cases h
  · rename_i n hn
    refine ⟨n, hn, ?_⟩
    split at h
    · simp_all
    · split at h <;> simp_all

/-- Everything the micro-step of a one-step step can do. -/
theorem single_eq_next {t s u : State} : single t s = .next u ↔ s.st.sub = .zero ∧ u = t := by
  unfold single
  split <;> simp_all [eq_comm]

/-- Everything the block's micro-step can do where the position is at no panel command. -/
theorem sequencerStep_cases {s t : State} (h : sequencerStep s = .next t) :
    (s.st.busy = false ∧ t = s) ∨
    (s.st.busy = true ∧ ∃ x, stepAt s.st.op s.st.step = some x ∧
      ((x = .resetPulse ∧ pulseStep s = .next t) ∨
        (∃ p, x = .setState p ∧ s.st.sub = .zero ∧ t = nextStep { s with st := { s.st with state := p } }) ∨
        (x = .encode ∧ encodeStep s = .next t) ∨
        (x = .enableHigh ∧ s.st.sub = .zero ∧ t = nextStep (drive .enable .hi s)) ∨
        (x = .release ∧ s.st.sub = .zero ∧ t = nextStep (releaseLines s)) ∨
        (∃ p, x = .complete p ∧ s.st.sub = .zero ∧ t = complete p s))) := by
  unfold sequencerStep at h
  split at h
  · rename_i hb
    simp only [Host.Outcome.next.injEq] at h
    exact .inl ⟨hb, h.symm⟩
  · rename_i hb
    refine .inr ⟨by simpa using hb, ?_⟩
    split at h <;> simp_all [single_eq_next]

end Sys2Proof.Laws
end

