-- ==== Sys2Proof/Laws/Step.lean ====
section
/-! SUPPORT. What one step can do: the move of the agent whose turn it is. -/

namespace Sys2Proof.Laws

open Sys2Proof.Machine

@[simp] theorem takeTurn_cfg (s : State) : (takeTurn s).2.cfg = s.cfg := by unfold takeTurn; split <;> rfl
@[simp] theorem takeTurn_st (s : State) : (takeTurn s).2.st = s.st := by unfold takeTurn; split <;> rfl
@[simp] theorem takeTurn_regs (s : State) : (takeTurn s).2.regs = s.regs := by unfold takeTurn; split <;> rfl
@[simp] theorem takeTurn_lines (s : State) : (takeTurn s).2.lines = s.lines := by unfold takeTurn; split <;> rfl
@[simp] theorem takeTurn_ser (s : State) : (takeTurn s).2.ser = s.ser := by unfold takeTurn; split <;> rfl
@[simp] theorem takeTurn_ram (s : State) : (takeTurn s).2.ram = s.ram := by unfold takeTurn; split <;> rfl
@[simp] theorem takeTurn_hostData (s : State) : (takeTurn s).2.hostData = s.hostData := by
  unfold takeTurn; split <;> rfl
@[simp] theorem takeTurn_trace (s : State) : (takeTurn s).2.trace = s.trace := by unfold takeTurn; split <;> rfl

/-- With no turn listed the block moves, and nothing is taken. -/
theorem takeTurn_nil (s : State) (h : s.env.turns = []) : takeTurn s = (.block, s) := by
  unfold takeTurn; rw [h]

/-- Everything a step can do. -/
theorem step_cases {s t : State} (h : step s = .next t) :
    (∃ p, (takeTurn s).1 = .reset p ∧ t = blockReset p (takeTurn s).2) ∨
    (∃ a i, (takeTurn s).1 = .host a ∧ fetchHost a = some i ∧ exec i (takeTurn s).2 = .next t) ∨
    (∃ a, (takeTurn s).1 = .host a ∧ fetchHost a = none ∧ t = hostAccess a (takeTurn s).2) ∨
    ((takeTurn s).1 = .block ∧ ∃ i, fetchPanel (takeTurn s).2 = some i ∧ exec i (takeTurn s).2 = .next t) ∨
    ((takeTurn s).1 = .block ∧ fetchPanel (takeTurn s).2 = none ∧ sequencerStep (takeTurn s).2 = .next t) := by
  unfold step at h
  split at h
  · rename_i p u hu
    simp only [Host.Outcome.next.injEq] at h
    rw [hu]
    exact .inl ⟨p, rfl, h.symm⟩
  · rename_i a u hu
    rw [hu]
    split at h
    · rename_i i hi
      exact .inr (.inl ⟨a, i, rfl, hi, h⟩)
    · rename_i hi
      simp only [Host.Outcome.next.injEq] at h
      exact .inr (.inr (.inl ⟨a, rfl, hi, h.symm⟩))
  · rename_i u hu
    rw [hu]
    split at h
    · rename_i i hi
      exact .inr (.inr (.inr (.inl ⟨rfl, i, hi, h⟩)))
    · rename_i hi
      exact .inr (.inr (.inr (.inr ⟨rfl, hi, h⟩)))

/-- What a fetched panel command is: the decoded opcode byte of the step the busy block is at. -/
theorem fetchPanel_some {s : State} {i : Instr} (h : fetchPanel s = some i) :
    s.st.busy = true ∧ ∃ c, stepAt s.st.op s.st.step = some (.send c) ∧ decodePanel c = .ok i := by
  unfold fetchPanel at h
  split at h
  · rename_i hb
    refine ⟨hb, ?_⟩
    split at h
    · rename_i c hc
      refine ⟨c, hc, ?_⟩
      cases hd : decodePanel c with
      | ok j => simp_all [Except.toOption]
      | error e => simp [hd, Except.toOption] at h
    · cases h
  · cases h

/-- The host's instruction is the decoded word of a write to CMD. -/
theorem fetchHost_some {a : HostAccess} {i : Instr} (h : fetchHost a = some i) :
    ∃ v, a = .wr 0x00 v ∧ i = decodeHost v := by
  cases a with
  | wr off v =>
    simp only [fetchHost] at h
    split at h
    · rename_i ho
      exact ⟨v, by rw [ho], by simpa using h.symm⟩
    · cases h
  | _ => simp [fetchHost] at h

/-- A decoded CMD word is a write of its OP to the state machine (42_state_machine.md R160). -/
theorem exec_decodeHost (v : Word) (s : State) : exec (decodeHost v) s = .next (hostCommand (v.extractLsb' 0 3) s) := by
  have hlt := (opField v).isLt
  unfold decodeHost
  rw [show v.extractLsb' 0 3 = opField v from rfl]
  have hk : opField v = BitVec.ofNat 3 (opField v).toNat := by simp
  generalize (opField v).toNat = n at *
  rw [hk]
  interval_cases n <;> rfl

/-- A panel command is the next micro-step of a SEND of its opcode, with as many data bytes as 30_encoding.md R95
fixes. -/
theorem exec_decodePanel {c : Byte} {i : Instr} (h : decodePanel c = .ok i) (s : State) :
    ∃ src : DataSource, exec i s = send c src s ∧ src.length s.cfg = dataLength s.cfg i := by
  have hc : c = BitVec.ofNat 8 c.toNat := by simp
  unfold decodePanel at h
  split at h
  case h_14 hn =>
    cases h
    rw [hn] at hc
    subst hc
    exact ⟨oldDataSource s, rfl, by unfold oldDataSource; split <;> rfl⟩
  case h_15 hn =>
    cases h
    rw [hn] at hc
    subst hc
    exact ⟨newDataSource s, rfl, by unfold newDataSource; split <;> rfl⟩
  all_goals
    cases h
    try
      rename_i hn
      rw [hn] at hc
      subst hc
      exact ⟨_, rfl, rfl⟩

end Sys2Proof.Laws
end

