-- ==== Sys2Proof/Tests/Slice0.lean ====
section
/-! SUPPORT. Tests: well-formedness smoke tests, decoding of written-out words, single steps whose results are taken from
spec/95_test_vectors.md, and a witness for the hypotheses of every obligation. -/

namespace Sys2Proof.Tests

open Sys2Proof Sys2Proof.Machine Sys2Proof.Safety

/-! ### A small build (95_test_vectors.md [W=8,H=2], D40) -/

/-- A build of 8 by 2 pixels; `BUSY_READY_LEVEL` is `Hi`, the payloads are made up. -/
def build (w h : Nat) (sampling : Sampling) : Config where
  w := w
  h := h
  pPwr := [0x11, 0x22]
  pBtst := [0x33]
  pPsr := []
  pPll := [0x44]
  pTres := [0x55]
  pVdcs := [0x66]
  pCdi := [0x77]
  lutVcom := Vector.replicate 42 0xA0
  lutWw := Vector.replicate 42 0xA1
  lutBw := Vector.replicate 42 0xA2
  lutWb := Vector.replicate 42 0xA3
  lutBb := Vector.replicate 42 0xA4
  busyReadyLevel := .hi
  sampling := sampling
  tReset := 200
  tSettle := 50
  fSclk := 4000000
  tCsSetup := 0
  tCsHold := 0
  tModeSetup := 0
  tGap := 0
  hregBase := 0
  imgBase := 0

/-- Bytes as memory cells from index 0. -/
def cells (bs : List Byte) : Memory := (List.range bs.length).zip bs

/-- An idle block in a state, with an image of 8 by 2 pixels declared, the image of V-E5, and no trace. -/
def idle (p : PanelState) : State where
  cfg := build 8 2 .nominal
  st := { state := p, busy := false, op := 0, err := if p = .absent then .hardwareAbsent else .none, step := 0,
          sub := .zero, polls := 0 }
  regs := { imgDesc := 0x00020008, imgCtl := 1, timeout := 0 }
  lines := if p = .absent ∨ p = .released then allReleased else constructLines true
  ser := { shiftReg := 0, bitCount := 0, busySync := .lo, wire := [] }
  ram := { img := cells [0xFF, 0xC0, 0xBF, 0x80, 0x7F, 0x40, 0x3F, 0x00, 0x00, 0x10, 0x20, 0x30, 0xF0, 0xE0, 0xD0, 0xC8]
           pk := [], pla := cells [0xF0, 0x0F], plb := cells [0xCC, 0x0F] }
  env := { turns := [], busyIn := [], busErrIn := [], draws := 0, epoch := 0 }
  hostData := 0
  trace := []

/-- A busy block at a position. -/
def busyAt (p : PanelState) (op : OpCode) (n : Nat) (m : Micro) : State :=
  { idle p with st := { state := p, busy := true, op := op, err := .none, step := n, sub := m, polls := 0 } }

/-- A SLEEP at its second SEND, 0x07 with one data byte. -/
def deep (m : Micro) : State := busyAt .awake 4 2 m

/-- The same state with moves to come. -/
def withTurns (ts : List Turn) (s : State) : State := { s with env := { s.env with turns := ts } }

/-- The same state with draws to come. -/
def withDraws (errs : List Bool) (busy : List Logic) (s : State) : State :=
  { s with env := { s.env with busErrIn := errs, busyIn := busy } }

/-- The same state with a budget. -/
def withBudget (n : Word) (s : State) : State := { s with regs := { s.regs with timeout := n } }

/-- A view of the next state. -/
def seen {α : Type} (f : State → α) (o : Host.Outcome State Fault Refusal) : Option α :=
  match o with
  | .next t => some (f t)
  | .fault _ => none
  | .refused _ => none

/-! ### Well-formedness: an ill-formed term for each check -/

theorem test_wellformed_ok : (build 8 2 .nominal).wellFormed = true := by decide
theorem test_rows_in_groups_refused :
    (build 6 4 .nominal).rowsInGroups = false ∧ (build 6 4 .nominal).wellFormed = false := by decide
theorem test_planes_whole_refused :
    (build 4 1 .nominal).planesWhole = false ∧ (build 4 1 .nominal).wellFormed = false := by decide
theorem test_transaction_length_refused :
    transactionWellFormed (build 8 2 .nominal) .deepSleep [0xA5] = true ∧
    transactionWellFormed (build 8 2 .nominal) .deepSleep [] = false ∧
    transactionWellFormed (build 8 2 .nominal) (.wake 0) [] = false := by decide

/-! ### Decoding: words written out from 30_encoding.md R91 and R94 (V-A1) -/

theorem test_decode_host :
    decodeHost 0xFFFFFFF9 = .wake 0x1FFFFFFF ∧ decodeHost 0x00000002 = .display 0 ∧
    decodeHost 0x0000000B = .clear 1 ∧ decodeHost 0x00000004 = .sleep 0 ∧ decodeHost 0x00000005 = .teardown 0 ∧
    decodeHost 0x00000008 = .reservedOp0 1 ∧ decodeHost 0x00000006 = .reservedOp6 0 ∧
    decodeHost 0x00000007 = .reservedOp7 0 := by decide
theorem test_decode_panel_settings :
    decodePanel 0b00000001 = .ok .powerSettings ∧ decodePanel 0b00000110 = .ok .boosterSoftStart ∧
    decodePanel 0b00000100 = .ok .powerOn ∧ decodePanel 0b00000000 = .ok .panelSettings ∧
    decodePanel 0b00110000 = .ok .pll ∧ decodePanel 0b01100001 = .ok .resolution ∧
    decodePanel 0b10000010 = .ok .vcomDc ∧ decodePanel 0b01010000 = .ok .vcomInterval := by decide
theorem test_decode_panel_luts :
    decodePanel 0b00100000 = .ok .lutVcom ∧ decodePanel 0b00100001 = .ok .lutWw ∧
    decodePanel 0b00100010 = .ok .lutBw ∧ decodePanel 0b00100011 = .ok .lutWb ∧
    decodePanel 0b00100100 = .ok .lutBb := by decide
theorem test_decode_panel_data :
    decodePanel 0b00010000 = .ok .dataOld ∧ decodePanel 0b00010011 = .ok .dataNew ∧
    decodePanel 0b00010010 = .ok .refresh ∧ decodePanel 0b00000010 = .ok .powerOff ∧
    decodePanel 0b00000111 = .ok .deepSleep ∧ decodePanel 0b00000011 = .error (.unknownOpcode 3) := by decide
theorem test_decode_short_transaction :
    decodeTransaction (build 8 2 .nominal) [0x07] = .error (.tooShort .deepSleep 0 1) ∧
    decodeTransaction (build 8 2 .nominal) [] = .error .noCommandByte ∧
    decodeTransaction (build 8 2 .nominal) [0x07, 0xA5, 0x12] = .ok (.deepSleep, [0xA5], [0x12]) := by decide
theorem test_decode_table_word :
    decodeTableWord 8 0x13 = some .dataNew ∧ decodeTableWord 8 0x14 = none ∧ decodeTableWord 32 5 = some (.teardown 0) ∧
    decodeTableWord 16 5 = none := by decide

/-! ### Placing an instruction (log 14) -/

theorem test_placed_host_word :
    seen (fun t => (t.st.busy, t.st.op, t.st.step)) (step (State.reset.withFetchWord 32 1)) = some (true, 1, 1) := by
  decide
theorem test_placed_opcode :
    seen (fun t => (t.lines.mode, t.st.sub, t.trace.getLast?)) (step (State.reset.withFetchWord 8 0x13)) =
      some (.lo, .enableLo, some (.lineSet .mode .lo)) := by decide
theorem test_reset_waits : step State.reset = .next State.reset := by rfl

/-! ### Host operations (V-F8, V-A3, V-X4): the STATUS read after the CMD write -/

theorem test_wake_accepted :
    seen (fun t => statusWord t.st) (exec (.wake 0) (idle .uninitialized)) = some 0x00000108 ∧
    seen (fun t => t.lines) (exec (.wake 0) (idle .uninitialized)) = some (idle .uninitialized).lines := by decide
theorem test_wake_rejected :
    seen (fun t => (statusWord t.st, t.trace)) (exec (.wake 0) (idle .awake)) =
      some (0x151, [.opDone 1 .invalidState]) := by decide
theorem test_display_accepted :
    seen (fun t => statusWord t.st) (exec (.display 0) (idle .awake)) = some 0x0000020A := by decide
theorem test_display_rejected :
    seen (fun t => statusWord t.st) (exec (.display 0) (idle .asleep)) = some 0x254 ∧
    seen (fun t => (statusWord t.st, t.trace))
        (exec (.display 0) { idle .awake with regs := { imgDesc := 0x012B0190, imgCtl := 1, timeout := 0 } }) =
      some (0x211, [.opDone 2 .invalidInput]) := by decide
theorem test_clear_accepted :
    seen (fun t => statusWord t.st)
      (exec (.clear 7) { idle .awake with regs := { imgDesc := 0, imgCtl := 0, timeout := 0 } }) = some 0x0000030B := by
  decide
theorem test_clear_rejected :
    seen (fun t => statusWord t.st) (exec (.clear 0) (idle .faulted)) = some 0x355 := by decide
theorem test_sleep :
    seen (fun t => statusWord t.st) (exec (.sleep 0) (idle .awake)) = some 0x409 ∧
    seen (fun t => statusWord t.st) (exec (.sleep 0) (idle .released)) = some 0x456 := by decide
theorem test_teardown :
    seen (fun t => statusWord t.st) (exec (.teardown 0) (idle .faulted)) = some 0x50D ∧
    seen (fun t => statusWord t.st) (exec (.teardown 0) (idle .absent)) = some 0x547 := by decide
theorem test_reserved :
    seen (fun t => statusWord t.st) (exec (.reservedOp0 0) (idle .uninitialized)) = some 0x060 ∧
    seen (fun t => statusWord t.st) (exec (.reservedOp6 0) (idle .awake)) = some 0x661 ∧
    seen (fun t => statusWord t.st) (exec (.reservedOp7 0) (idle .absent)) = some 0x747 := by decide
theorem test_command_while_busy : exec (.clear 0) (busyAt .uninitialized 1 1 .zero) =
    .next (busyAt .uninitialized 1 1 .zero) := by rfl

/-! ### Panel commands -/

/-- V-B3: the bits of 0xA5 and of 0x07 at the rising edges. -/
theorem test_waveform :
    sampledBits (shiftOut 0xA5 (idle .awake).ser).wire = [true, false, true, false, false, true, false, true] ∧
    sampledBits (shiftOut 0x07 (idle .awake).ser).wire = [false, false, false, false, false, true, true, true] := by
  decide
/-- V-B2: the data byte of 0x07. -/
theorem test_deep_sleep_byte :
    seen (fun t => (t.trace, t.st.sub)) (exec .deepSleep
        (withDraws [false] [] { deep (.byte 1) with lines := { (idle .awake).lines with mode := .hi } })) =
      some ([.byte .hi 0xA5], .enableHi) := by decide
/-- V-B4: a bus failure on the data byte. -/
theorem test_deep_sleep_bus_failure :
    seen (fun t => (t.trace, t.st.sub)) (exec .deepSleep
        (withDraws [true] [] { deep (.byte 1) with lines := { (idle .awake).lines with mode := .hi } })) =
      some ([.byte .hi 0xA5], .busFail) := by decide
/-- V-F4: the planes of a DISPLAY. -/
theorem test_plane_bytes :
    seen (fun t => t.trace) (exec .dataOld (withDraws [false] [] (busyAt .displaying 2 3 (.byte 1)))) =
      some [.byte .lo 0xF0] ∧
    seen (fun t => t.trace) (exec .dataNew (withDraws [false] [] (busyAt .displaying 2 4 (.byte 1)))) =
      some [.byte .lo 0xCC] := by decide
/-- V-X3: the white bytes of a CLEAR. -/
theorem test_clear_bytes :
    seen (fun t => t.trace) (exec .dataOld (withDraws [false] [] (busyAt .clearing 3 2 (.byte 2)))) =
      some [.byte .lo 0xFF] ∧
    seen (fun t => t.trace) (exec .dataNew (withDraws [false] [] (busyAt .clearing 3 3 (.byte 1)))) =
      some [.byte .lo 0xFF] := by decide
/-- V-B1: MODE goes `Hi` and no data byte follows (40_bus_transport.md R126). -/
theorem test_empty_payload :
    seen (fun t => (t.trace, t.st.sub)) (exec .refresh (busyAt .displaying 2 5 .modeHi)) =
      some ([.lineSet .mode .hi], .enableHi) ∧
    seen (fun t => (t.trace, t.st.sub)) (exec .powerOn (busyAt .asleep 1 4 .modeHi)) =
      some ([.lineSet .mode .hi], .enableHi) ∧
    seen (fun t => (t.trace, t.st.sub)) (exec .powerOff (busyAt .awake 4 1 .modeHi)) =
      some ([.lineSet .mode .hi], .enableHi) := by decide
/-- The payload of a settings command, in order (30_encoding.md R94). -/
theorem test_settings_bytes :
    seen (fun t => t.trace) (exec .powerSettings (withDraws [false] [] (busyAt .asleep 1 2 (.byte 2)))) =
      some [.byte .lo 0x22] ∧
    seen (fun t => t.trace) (exec .boosterSoftStart (withDraws [false] [] (busyAt .asleep 1 3 (.byte 1)))) =
      some [.byte .lo 0x33] ∧
    seen (fun t => t.trace) (exec .pll (withDraws [false] [] (busyAt .asleep 1 6 (.byte 1)))) =
      some [.byte .lo 0x44] ∧
    seen (fun t => t.trace) (exec .resolution (withDraws [false] [] (busyAt .asleep 1 7 (.byte 1)))) =
      some [.byte .lo 0x55] ∧
    seen (fun t => t.trace) (exec .vcomDc (withDraws [false] [] (busyAt .asleep 1 8 (.byte 1)))) =
      some [.byte .lo 0x66] ∧
    seen (fun t => t.trace) (exec .vcomInterval (withDraws [false] [] (busyAt .asleep 1 9 (.byte 1)))) =
      some [.byte .lo 0x77] ∧
    seen (fun t => t.trace) (exec .panelSettings (withDraws [false] [] (busyAt .asleep 1 5 (.byte 0)))) =
      some [.byte .lo 0x00] := by decide
/-- The last byte of each waveform table (20_memory.md R64). -/
theorem test_lut_bytes :
    seen (fun t => t.trace) (exec .lutVcom (withDraws [false] [] (busyAt .asleep 1 10 (.byte 42)))) =
      some [.byte .lo 0xA0] ∧
    seen (fun t => t.trace) (exec .lutWw (withDraws [false] [] (busyAt .asleep 1 11 (.byte 42)))) =
      some [.byte .lo 0xA1] ∧
    seen (fun t => t.trace) (exec .lutBw (withDraws [false] [] (busyAt .asleep 1 12 (.byte 42)))) =
      some [.byte .lo 0xA2] ∧
    seen (fun t => t.trace) (exec .lutWb (withDraws [false] [] (busyAt .asleep 1 13 (.byte 42)))) =
      some [.byte .lo 0xA3] ∧
    seen (fun t => t.trace) (exec .lutBb (withDraws [false] [] (busyAt .asleep 1 14 (.byte 42)))) =
      some [.byte .lo 0xA4] := by decide
/-- V-H3: a budget of 1 is spent by the first not-ready sample; V-H5: a budget of 2 is not. -/
theorem test_budget :
    seen (fun t => (t.trace, t.st.sub, t.st.polls))
        (exec .refresh (withBudget 1 (withDraws [] [.lo] (busyAt .displaying 2 5 .sample)))) =
      some ([.busySample .lo], .timedOut, 1) ∧
    seen (fun t => (t.trace, t.st.sub, t.st.polls))
        (exec .refresh (withBudget 2 (withDraws [] [.lo] (busyAt .displaying 2 5 .sample)))) =
      some ([.busySample .lo], .toggle, 1) ∧
    seen (fun t => (t.trace, t.st.sub, t.st.polls))
        (exec .refresh (withBudget 2 (withDraws [] [.hi] (busyAt .displaying 2 5 .sample)))) =
      some ([.busySample .hi], .readyHi, 0) := by decide
/-- The poll counter saturates (10_state.md R35). -/
theorem test_polls_saturate : countPoll 0xFFFFFFFF = 0xFFFFFFFF ∧ countPoll 0xFFFFFFFE = 0xFFFFFFFF := by decide

/-! ### Encoder (V-E1 to V-E7) -/

/-- V-E2, V-E3. -/
theorem test_pack_split :
    packCodes (quantise 0xFF) (quantise 0x80) (quantise 0x40) (quantise 0x00) = 0xE4 ∧
    splitA { idle .awake with ram := { (idle .awake).ram with pk := cells [0xE4, 0x1B] } } 0 = 0xC3 ∧
    splitB { idle .awake with ram := { (idle .awake).ram with pk := cells [0xE4, 0x1B] } } 0 = 0xA5 := by decide
/-- V-E5, the PK column, Nominal and Legacy. -/
theorem test_pack_vectors :
    (List.range 4).map (packValue (idle .awake)) = [0xFA, 0x50, 0x00, 0xFF] ∧
    (List.range 4).map (packValue { idle .awake with cfg := build 8 2 .legacy }) = [0xFF, 0xE9, 0x40, 0x03] := by decide
/-- V-E7, where one plane byte spans two rows. -/
theorem test_split_vectors :
    splitA { idle .awake with ram := { (idle .awake).ram with pk := cells [0x1B, 0xE4] } } 0 = 0x3C ∧
    splitB { idle .awake with ram := { (idle .awake).ram with pk := cells [0x90, 0x6F] } } 0 = 0x4B := by decide

/-! ### Host interface, memory, reset (V-A2, V-X4, V-R2) -/

theorem test_register_writes :
    seen (fun t => t.regs.imgCtl) (step (withTurns [.host (.wr 0x0C 0xFFFFFFFF)] (idle .awake))) = some 1 ∧
    seen (fun t => t.regs.imgDesc) (step (withTurns [.host (.wr 0x08 0x012C0190)] (idle .awake))) = some 0x012C0190 ∧
    seen (fun t => statusWord t.st) (step (withTurns [.host (.wr 0x04 0xFFFFFFFF)] (idle .awake))) = some 1 := by decide
theorem test_register_reads :
    seen (fun t => t.hostData) (step (withTurns [.host (.rd 0x04)] (idle .absent))) = some 0x00000047 ∧
    seen (fun t => t.hostData) (step (withTurns [.host (.rd 0x00)] (idle .awake))) = some 0 ∧
    seen (fun t => t.hostData) (step (withTurns [.host (.rd 0x14)] (idle .awake))) = some 0 := by decide
theorem test_image_access :
    seen (fun t => imgByte t 15) (step (withTurns [.host (.imgWr 15 0x5A)] (idle .awake))) = some 0x5A ∧
    seen (fun t => t.ram.img) (step (withTurns [.host (.imgWr 16 0x5A)] (idle .awake))) = some (idle .awake).ram.img ∧
    seen (fun t => t.hostData) (step (withTurns [.host (.imgRd 16)] (idle .awake))) = some 0 ∧
    seen (fun t => t.hostData) (step (withTurns [.host (.imgRd 1)] (busyAt .awake 4 1 .zero))) = some 0xC0 := by decide
theorem test_wait_idle_polls :
    seen (fun t => (t.hostData, t.env.turns)) (step (withTurns [.host .waitIdle] (busyAt .awake 4 1 .zero))) =
      some (0x409, [.block, .host .waitIdle]) ∧
    seen (fun t => (t.hostData, t.env.turns)) (step (withTurns [.host .waitIdle] (idle .awake))) = some (1, []) := by
  decide
theorem test_memory_write_keeps_order :
    (Memory.write [(1, 0xAA), (3, 0xBB)] 2 0xCC) = [(1, 0xAA), (2, 0xCC), (3, 0xBB)] ∧
    (Memory.write [(1, 0xAA), (3, 0xBB)] 3 0xCC) = [(1, 0xAA), (3, 0xCC)] ∧
    Memory.wf [(1, 0xAA), (1, 0xBB)] = false := by decide
theorem test_block_reset :
    seen (fun t => (statusWord t.st, t.lines.enable, t.trace))
        (step (withTurns [.reset true] (withBudget 7 (busyAt .clearing 3 2 .sample)))) =
      some (0, .hi, [.blockReset true]) ∧
    seen (fun t => (statusWord t.st, t.lines, t.trace)) (step (withTurns [.reset false] (idle .awake))) =
      some (0x47, allReleased, [.blockReset false]) := by decide
/-- V-X2 and V-X3: the log keeps a transaction cut short by a bus failure (30_encoding.md R98). -/
theorem test_transaction_log :
    logFrom .hi none [.lineSet .mode .lo, .lineSet .enable .lo, .byte .lo 0x10, .lineSet .mode .hi, .byte .hi 0xFF,
        .lineSet .enable .hi, .opDone 3 .busFailure] = [{ cmd := 0x10, data := [0xFF] }] := by decide
/-- 60_exceptions.md R270: after an abort the panel's surface is indeterminate. -/
theorem test_panel_after_abort :
    panelView (build 8 2 .nominal)
        [.lineSet .enable .lo, .byte .lo 0x10, .byte .hi 0xFF, .byte .hi 0xFF, .lineSet .enable .hi,
          .opDone 3 .busFailure] = .unknown ∧
    (panelView (build 8 2 .nominal)
        [.blockReset true, .lineSet .enable .lo, .byte .lo 0x10, .byte .hi 0xFF, .byte .hi 0xF0,
          .lineSet .enable .hi]).oldData = some [0xFF, 0xF0] := by decide

/-- Log 20: a plane is not known while its frame is under way, and nothing is after an opcode outside the 18. -/
theorem test_panel_unknown_in_between :
    (panelView (build 8 2 .nominal) (.blockReset true :: Expect.frame 0x10 [1, 2])).oldData = some [1, 2] ∧
    (panelView (build 8 2 .nominal)
        (.blockReset true :: Expect.frame 0x10 [1, 2] ++ Expect.frameUpTo 0x10 [3, 4] 1)).oldData = none ∧
    panelView (build 8 2 .nominal) (.blockReset true :: Expect.frame 0x10 [1, 2] ++ Expect.frame 0x03 []) =
      .unknown := by decide
/-- 60_exceptions.md R270, R279: the surface is known once a CLEAR has completed, not at its refresh, and nothing is known
after a SLEEP. -/
theorem test_panel_refresh_and_sleep :
    (panelView (build 8 2 .nominal) (.blockReset true :: Expect.clearEvents (build 8 2 .nominal) [0, 1, 0])).surface =
      none ∧
    (panelView (build 8 2 .nominal)
        (.blockReset true :: Expect.clearEvents (build 8 2 .nominal) [0, 1, 0] ++ [.opDone 3 .none])).surface =
      some ([0xFF, 0xFF], [0xFF, 0xFF]) ∧
    panelView (build 8 2 .nominal)
        (.blockReset true :: Expect.clearEvents (build 8 2 .nominal) [0, 1, 0] ++ [.opDone 3 .none] ++
          Expect.frame 0x02 [] ++ Expect.frame 0x07 [0xA5] ++ [.opDone 4 .none]) = .unknown := by decide
/-- Log 12: a position past ENCODE's end, at `NPK + NPL` = 6 here, or inside a step of one micro-step, is in no step. -/
theorem test_lost_positions :
    step (busyAt .displaying 2 2 (.encode 7)) = .fault .lostPosition ∧
    seen (fun t => t.st.step) (step (busyAt .displaying 2 2 (.encode 6))) = some 3 ∧
    step (busyAt .awake 4 3 .sample) = .fault .lostPosition ∧
    step (busyAt .awake 5 2 (.byte 0)) = .fault .lostPosition := ⟨rfl, by decide, rfl, rfl⟩

/-! ### Witnesses: for each obligation with hypotheses, concrete states that meet them, clause by clause -/

theorem witness_DecodeAndEncodeAgree :
    decodePanel 0x82 = .ok .vcomDc ∧ encode .deepSleep = .panel 0x07 ∧
    transactionWellFormed (build 8 2 .nominal) .deepSleep [0xA5] = true ∧
    encode .dataOld = .panel 0x10 ∧ transactionWellFormed (build 8 2 .nominal) .dataOld [1, 2] = true ∧
    transactionWellFormed (build 8 2 .nominal) .refresh [] = true := by decide
theorem witness_PanelOpcodesAreTheEighteen :
    (0x82#8 ∈ [0x01#8, 0x06#8, 0x04#8, 0x00#8, 0x30#8, 0x61#8, 0x82#8, 0x50#8, 0x20#8, 0x21#8, 0x22#8, 0x23#8, 0x24#8,
        0x10#8, 0x13#8, 0x12#8, 0x02#8, 0x07#8]) ∧
    (0x03#8 ∉ [0x01#8, 0x06#8, 0x04#8, 0x00#8, 0x30#8, 0x61#8, 0x82#8, 0x50#8, 0x20#8, 0x21#8, 0x22#8, 0x23#8, 0x24#8,
        0x10#8, 0x13#8, 0x12#8, 0x02#8, 0x07#8]) := by decide
theorem witness_WakeIsAccepted :
    (idle .uninitialized).st.busy = false ∧ (idle .uninitialized).st.state = .uninitialized ∧
    (idle .asleep).st.busy = false ∧ (idle .asleep).st.state = .asleep ∧
    (idle .faulted).st.busy = false ∧ (idle .faulted).st.state = .faulted := by decide
theorem witness_DisplayIsAccepted :
    (idle .awake).st.busy = false ∧ (idle .awake).st.state = .awake ∧ (idle .awake).regs.imgCtl.getLsbD 0 = true ∧
    ((idle .awake).regs.imgDesc.extractLsb' 0 16).toNat = (idle .awake).cfg.w ∧
    ((idle .awake).regs.imgDesc.extractLsb' 16 16).toNat = (idle .awake).cfg.h := by decide
theorem witness_ClearIsAccepted : (idle .awake).st.busy = false ∧ (idle .awake).st.state = .awake := by decide
theorem witness_SleepIsAccepted : (idle .awake).st.busy = false ∧ (idle .awake).st.state = .awake := by decide
theorem witness_TeardownIsAccepted :
    (idle .uninitialized).st.busy = false ∧ (idle .uninitialized).st.state = .uninitialized ∧
    (idle .awake).st.busy = false ∧ (idle .awake).st.state = .awake ∧
    (idle .asleep).st.busy = false ∧ (idle .asleep).st.state = .asleep ∧
    (idle .faulted).st.busy = false ∧ (idle .faulted).st.state = .faulted := by decide
theorem witness_ReservedCodesAreRejected :
    (idle .released).st.busy = false ∧ (idle .released).st.state ≠ .absent ∧
    (idle .uninitialized).st.busy = false ∧ (idle .uninitialized).st.state ≠ .absent := by decide
theorem witness_WrongStateIsRejected :
    (idle .awake).st.busy = false ∧ (idle .awake).st.state = .awake ∧
    (idle .released).st.busy = false ∧ (idle .released).st.state = .released ∧
    (idle .asleep).st.busy = false ∧ (idle .asleep).st.state = .asleep ∧
    (idle .faulted).st.busy = false ∧ (idle .faulted).st.state = .faulted ∧
    (idle .uninitialized).st.busy = false ∧ (idle .uninitialized).st.state = .uninitialized := by decide
theorem witness_MissizedImageIsRejected :
    (idle .awake).st.busy = false ∧ (idle .awake).st.state = .awake ∧ (0#32).getLsbD 0 = false ∧
    ((0x00020009#32).extractLsb' 0 16).toNat ≠ (idle .awake).cfg.w ∧
    ((0x00030008#32).extractLsb' 16 16).toNat ≠ (idle .awake).cfg.h := by decide
theorem witness_AbsentRejectsEveryCode :
    (.wake 5, 1) ∈ Expect.hostCodes 5 ∧ (.reservedOp0 5, 0) ∈ Expect.hostCodes 5 ∧
    (.reservedOp7 5, 7) ∈ Expect.hostCodes 5 ∧
    (idle .absent).st.busy = false ∧ (idle .absent).st.state = .absent := by decide
theorem witness_CommandWhileBusyIsIgnored :
    (.clear 0, 3) ∈ Expect.hostCodes 0 ∧ (deep .sample).st.busy = true := by decide
theorem witness_CommandsAreCheckedInOrder :
    (.reservedOp0 0, 0) ∈ Expect.hostCodes 0 ∧ (idle .absent).st.busy = false ∧
    Expect.firstError (idle .absent) 0 = .hardwareAbsent ∧ Expect.firstError (idle .released) 0 = .invalidOp ∧
    (.display 0, 2) ∈ Expect.hostCodes 0 ∧ Expect.firstError (idle .asleep) 2 = .invalidState ∧
    Expect.firstError { idle .awake with regs := { imgDesc := 0x00020008, imgCtl := 0, timeout := 0 } } 2 =
      .invalidInput ∧
    Expect.firstError (idle .awake) 2 = .none := by decide
theorem witness_HostCommandFrame :
    (.display 0, 2) ∈ Expect.hostCodes 0 ∧
    seen (fun t => t.st.state) (exec (.display 0) (idle .awake)) = some .displaying ∧
    (.reservedOp6 0, 6) ∈ Expect.hostCodes 0 ∧
    seen (fun t => t.trace) (exec (.reservedOp6 0) (idle .awake)) = some [.opDone 6 .invalidOp] := by decide

/-- The second SEND of a SLEEP, at every position, is a panel command with one data byte. -/
theorem witness_sends (m : Micro) : (.deepSleep, 0x07, [0xA5]) ∈ Expect.sends (deep m) := by
  simp [Expect.sends]
/-- A data command with the planes as data, in a DISPLAY and in a CLEAR, and one with no data. -/
theorem witness_sends_planes :
    (.dataOld, 0x10, [0xF0, 0x0F]) ∈ Expect.sends (busyAt .displaying 2 3 .zero) ∧
    (.dataNew, 0x13, [0xFF, 0xFF]) ∈ Expect.sends (busyAt .clearing 3 3 .zero) ∧
    (.refresh, 0x12, []) ∈ Expect.sends (busyAt .displaying 2 5 .zero) := by decide
theorem witness_PanelFrameMicroSteps :
    (deep .zero).st.sub = .zero ∧ (deep .enableLo).st.sub = .enableLo ∧
    (withDraws [true] [] (deep (.byte 0))).st.sub = .byte 0 ∧
    (withDraws [true] [] (deep (.byte 0))).env.busErrIn = true :: [] ∧ (deep .modeHi).st.sub = .modeHi ∧
    (withDraws [false] [] (deep (.byte 1))).st.sub = .byte (0 + 1) ∧ ([0xA5#8] : List Byte)[0]? = some 0xA5 ∧
    (withDraws [false] [] (deep (.byte 1))).env.busErrIn = false :: [] ∧
    (deep .enableHi).st.sub = .enableHi ∧ (deep .busFail).st.sub = .busFail := by decide
theorem witness_PanelWaitMicroSteps :
    (deep .indLo).st.sub = .indLo ∧ (deep .settle).st.sub = .settle ∧
    (withDraws [] [.hi] (deep .sample)).st.sub = .sample ∧
    (withDraws [] [.hi] (deep .sample)).env.busyIn = .hi :: [] ∧
    (withBudget 1 (withDraws [] [.lo] (deep .sample))).env.busyIn = .lo :: [] ∧
    (deep .toggle).st.sub = .toggle ∧ (deep .toggle).lines.indicator = .hi ∧
    (deep .pollDelay).st.sub = .pollDelay ∧ (deep .readyHi).st.sub = .readyHi ∧
    (deep .lastDelay).st.sub = .lastDelay ∧ (deep .timedOut).st.sub = .timedOut := by decide
theorem witness_AbortEndsTheOperation :
    (deep (.abort .busFailure)).st.sub = .abort .busFailure ∧
    (deep (.abort .deviceUnresponsive)).st.sub = .abort .deviceUnresponsive ∧
    (deep (.abort .busFailure)).st.busy = true := by decide
theorem witness_PanelCommandSendsItsTransaction :
    (withDraws [false, false] [.hi] (deep .zero)).st.sub = .zero ∧
    (withDraws [false, false] [.hi] (deep .zero)).env.busErrIn = List.replicate (1 + 1) false ++ [] ∧
    (withDraws [false, false] [.hi] (deep .zero)).env.busyIn = (deep .zero).cfg.busyReadyLevel :: [] := by decide
theorem witness_WaitEndsWhenReady :
    (withBudget 3 (withDraws [] [.lo, .lo, .hi] (deep .indLo))).st.sub = .indLo ∧
    2 < (withBudget 3 (withDraws [] [.lo, .lo, .hi] (deep .indLo))).regs.timeout.toNat ∧
    (withBudget 3 (withDraws [] [.lo, .lo, .hi] (deep .indLo))).env.busyIn =
      Expect.samples (deep .indLo).cfg 2 ++ [] ∧
    (withDraws [] [.hi] (deep .indLo)).regs.timeout = 0 ∧
    (withDraws [] [.hi] (deep .indLo)).env.busyIn = Expect.samples (deep .indLo).cfg 0 ++ [] := by decide
theorem witness_WaitFailsAtItsBudget :
    (withBudget 1 (withDraws [] [.lo] (deep .indLo))).st.sub = .indLo ∧
    (withBudget 1 (withDraws [] [.lo] (deep .indLo))).regs.timeout ≠ 0 ∧
    (withBudget 1 (withDraws [] [.lo] (deep .indLo))).env.busyIn =
      List.replicate (1#32).toNat (Expect.notReady (deep .indLo).cfg) ++ [] := by decide
theorem witness_UnboundedWaitGoesOn :
    (withDraws [] [.lo, .lo] (deep .indLo)).st.sub = .indLo ∧
    (withDraws [] [.lo, .lo] (deep .indLo)).regs.timeout = 0 ∧
    (withDraws [] [.lo, .lo] (deep .indLo)).env.busyIn =
      List.replicate 2 (Expect.notReady (deep .indLo).cfg) ++ [] := by decide
theorem witness_BusFailureEndsTheFrame :
    (withDraws [true] [] (deep .zero)).st.sub = .zero ∧ 0 ≤ ([0xA5#8] : List Byte).length ∧
    (withDraws [true] [] (deep .zero)).env.busErrIn = List.replicate 0 false ++ true :: [] ∧
    1 ≤ ([0xA5#8] : List Byte).length ∧
    (withDraws [false, true] [] (deep .zero)).env.busErrIn = List.replicate 1 false ++ true :: [] := by decide
theorem witness_PanelCommandAlwaysMoves :
    inSend 1 (deep .zero).st.sub = true ∧ inSend 1 (deep (.byte 1)).st.sub = true ∧
    inSend 1 (deep (.abort .busFailure)).st.sub = true := by decide
theorem witness_PanelCommandFrame :
    seen (fun t => t.st.sub) (exec .deepSleep (deep .zero)) = some .enableLo ∧ inWait (deep .zero).st.sub = false ∧
    seen (fun t => t.st.sub) (exec .deepSleep (deep .indLo)) = some .settle ∧ inWait (deep .indLo).st.sub = true := by
  decide

theorem witness_WakeRunsItsSequence :
    (withTurns [.host (.wr 0x00 0xFFFFFFF9)]
      (withDraws (List.replicate (Expect.byteCount (Expect.wakeSends (build 8 2 .nominal))) false)
        (Expect.allSamples (build 8 2 .nominal) (List.replicate 13 1)) (withBudget 2 (idle .faulted)))).st.busy = false ∧
    (idle .faulted).st.state = .faulted ∧ (idle .asleep).st.state = .asleep ∧
    (0xFFFFFFF9#32).extractLsb' 0 3 = 1 ∧ (List.replicate 13 1).length = 13 ∧
    (∀ m ∈ List.replicate 13 1, m < (2#32).toNat) := by decide
/-- An Awake block with an operation written to CMD, a budget of 3, no bus failure, and waits that see `ms` not-ready
samples. -/
def aboutTo (v : Word) (ms : List Nat) : State :=
  withTurns [.host (.wr 0x00 v)]
    (withBudget 3 (withDraws (List.replicate 7 false) (Expect.allSamples (build 8 2 .nominal) ms) (idle .awake)))
theorem witness_DisplaySendsBothPlanes :
    (aboutTo 2 [0, 0, 2]).cfg.wellFormed = true ∧ (aboutTo 2 [0, 0, 2]).st.busy = false ∧
    (aboutTo 2 [0, 0, 2]).st.state = .awake ∧ (aboutTo 2 [0, 0, 2]).regs.imgCtl.getLsbD 0 = true ∧
    ((aboutTo 2 [0, 0, 2]).regs.imgDesc.extractLsb' 0 16).toNat = (aboutTo 2 [0, 0, 2]).cfg.w ∧
    ((aboutTo 2 [0, 0, 2]).regs.imgDesc.extractLsb' 16 16).toNat = (aboutTo 2 [0, 0, 2]).cfg.h ∧
    (2#32).extractLsb' 0 3 = 2 ∧ (aboutTo 2 [0, 0, 2]).env.turns = [.host (.wr 0x00 2)] ∧
    ([0, 0, 2] : List Nat).length = 3 ∧ (∀ m ∈ [0, 0, 2], m < (aboutTo 2 [0, 0, 2]).regs.timeout.toNat) ∧
    (aboutTo 2 [0, 0, 2]).env.busErrIn = List.replicate (2 * (aboutTo 2 [0, 0, 2]).cfg.npl + 3) false ++ [] ∧
    (aboutTo 2 [0, 0, 2]).env.busyIn = Expect.allSamples (aboutTo 2 [0, 0, 2]).cfg [0, 0, 2] ++ [] := by decide
theorem witness_ClearSendsWhitePlanes :
    (aboutTo 0xB [1, 0, 0]).st.busy = false ∧ (aboutTo 0xB [1, 0, 0]).st.state = .awake ∧
    (0xB#32).extractLsb' 0 3 = 3 ∧ (aboutTo 0xB [1, 0, 0]).env.turns = [.host (.wr 0x00 0xB)] ∧
    ([1, 0, 0] : List Nat).length = 3 ∧ (∀ m ∈ [1, 0, 0], m < (aboutTo 0xB [1, 0, 0]).regs.timeout.toNat) ∧
    (aboutTo 0xB [1, 0, 0]).env.busErrIn = List.replicate (2 * (aboutTo 0xB [1, 0, 0]).cfg.npl + 3) false ++ [] ∧
    (aboutTo 0xB [1, 0, 0]).env.busyIn = Expect.allSamples (aboutTo 0xB [1, 0, 0]).cfg [1, 0, 0] ++ [] := by decide
theorem witness_SleepSendsPowerOffAndDeepSleep :
    (idle .awake).st.busy = false ∧ (idle .awake).st.state = .awake ∧ (4#32).extractLsb' 0 3 = 4 ∧
    1 < (withBudget 2 (idle .awake)).regs.timeout.toNat ∧
    (withDraws [false, false, false] [.lo, .hi, .hi] (idle .awake)).env.busErrIn = List.replicate 3 false ++ [] ∧
    (withDraws [false, false, false] [.lo, .hi, .hi] (idle .awake)).env.busyIn =
      Expect.allSamples (idle .awake).cfg [1, 0] ++ [] := by decide
theorem witness_TeardownReleasesTheLines :
    (idle .uninitialized).st.busy = false ∧ (idle .uninitialized).st.state = .uninitialized ∧
    (idle .awake).st.state = .awake ∧ (idle .asleep).st.state = .asleep ∧ (idle .faulted).st.state = .faulted ∧
    (5#32).extractLsb' 0 3 = 5 ∧
    (withTurns [.host (.wr 0x00 5)] (idle .awake)).env.turns = [.host (.wr 0x00 5)] := by decide

theorem witness_SamplingWindow :
    (build 8 2 .legacy).wellFormed = true ∧ 0 < (build 8 2 .legacy).npix ∧ 3 < (build 8 2 .legacy).npix ∧
    15 < (build 8 2 .nominal).npix ∧ (build 8 2 .legacy).sampling = .legacy ∧
    (idle .awake).cfg.sampling = .nominal ∧ (idle .awake).cfg.wellFormed = true := by decide
theorem witness_EncodeClosedForm :
    (busyAt .displaying 2 2 .zero).cfg.wellFormed = true ∧ (busyAt .displaying 2 2 .zero).st.busy = true ∧
    (busyAt .displaying 2 2 .zero).st.op = 2 ∧ (busyAt .displaying 2 2 .zero).st.step = 2 ∧
    (busyAt .displaying 2 2 .zero).st.sub = .zero ∧ (busyAt .displaying 2 2 .zero).env.turns = [] ∧
    1 < (busyAt .displaying 2 2 .zero).cfg.npl := by decide
theorem witness_UniformImagesEncodeUniformly :
    ∀ i, i < (idle .awake).cfg.npix → shadeOfCode (quantise (imgByte
      { busyAt .displaying 2 2 .zero with
        ram := { (idle .awake).ram with img := cells (List.replicate 16 0x80) } } i)) = .light := by decide
theorem witness_EncodingDependsOnTheImageOnly :
    (build 8 2 .nominal).w = (idle .awake).cfg.w ∧ (build 8 2 .nominal).h = (idle .awake).cfg.h ∧
    (build 8 2 .nominal).sampling = (idle .awake).cfg.sampling ∧
    (∀ i, i < (idle .awake).cfg.npix →
      imgByte (withBudget 9 (busyAt .displaying 2 2 .zero)) i = imgByte (busyAt .displaying 2 2 .zero) i) ∧
    (withBudget 9 (busyAt .displaying 2 2 .zero)).st.sub = .zero := by decide
theorem witness_RefreshShowsTheSampledShades :
    (idle .awake).cfg.wellFormed = true ∧ ([0, 0, 2] : List Nat).length = 3 ∧ 15 < (idle .awake).cfg.npix ∧
    (idle .awake).cfg.sampling = .nominal := by decide
theorem witness_NothingSentBeforeSleepSurvives : ([1, 0] : List Nat).length = 2 := by decide

theorem witness_RegisterWrites :
    (idle .awake).st.busy = false ∧
    (withTurns [.host (.wr 0x08 0xFFFFFFFF)] (idle .awake)).env.turns = .host (.wr 0x08 0xFFFFFFFF) :: [] ∧
    (withTurns [.host (.wr 0x0C 2)] (idle .awake)).env.turns = .host (.wr 0x0C 2) :: [] ∧
    (withTurns [.host (.wr 0x10 0)] (idle .awake)).env.turns = .host (.wr 0x10 0) :: [] ∧
    (withTurns [.host (.wr 0x14 1)] (idle .awake)).env.turns = .host (.wr 0x14 1) :: [] ∧
    0x14 ≠ 0x00 ∧ 0x14 ≠ 0x08 ∧ 0x14 ≠ 0x0C ∧ 0x14 ≠ 0x10 := by decide
theorem witness_RegisterReads :
    (withTurns [.host .waitIdle] (deep .sample)).env.turns = .host .waitIdle :: [] ∧
    (statusWord (deep .sample).st).getLsbD 3 = true ∧
    (withTurns [.host .waitIdle] (idle .awake)).env.turns = .host .waitIdle :: [] ∧
    (statusWord (idle .awake).st).getLsbD 3 = false ∧
    (withTurns [.host (.rd 0x04)] (idle .awake)).env.turns = .host (.rd 0x04) :: [] ∧
    (withTurns [.host (.rd 0x08)] (idle .awake)).env.turns = .host (.rd 0x08) :: [] ∧
    (withTurns [.host (.rd 0x0C)] (idle .awake)).env.turns = .host (.rd 0x0C) :: [] ∧
    (withTurns [.host (.rd 0x10)] (deep .sample)).env.turns = .host (.rd 0x10) :: [] ∧
    (withTurns [.host (.rd 0x00)] (idle .awake)).env.turns = .host (.rd 0x00) :: [] := by decide
theorem witness_ImageWrites :
    (idle .awake).st.busy = false ∧
    (withTurns [.host (.imgWr 15 1)] (idle .awake)).env.turns = .host (.imgWr 15 1) :: [] ∧
    15 < (idle .awake).cfg.npix ∧
    (withTurns [.host (.imgWr 16 1)] (idle .awake)).env.turns = .host (.imgWr 16 1) :: [] ∧
    (idle .awake).cfg.npix ≤ 16 := by decide
theorem witness_ImageReads :
    (withTurns [.host (.imgRd 15)] (deep .sample)).env.turns = .host (.imgRd 15) :: [] ∧
    15 < (deep .sample).cfg.npix ∧
    (withTurns [.host (.imgRd 16)] (idle .awake)).env.turns = .host (.imgRd 16) :: [] ∧
    ¬ 16 < (idle .awake).cfg.npix := by decide
theorem witness_WritesWhileBusyAreIgnored :
    (deep .sample).st.busy = true ∧
    (withTurns [.host (.wr 0x10 5)] (deep .sample)).env.turns = .host (.wr 0x10 5) :: [] ∧
    (withTurns [.host (.wr 0x00 3)] (deep .sample)).env.turns = .host (.wr 0x00 3) :: [] ∧
    (withTurns [.host (.imgWr 0 0)] (deep .sample)).env.turns = .host (.imgWr 0 0) :: [] := by decide
theorem witness_BlockResetConstructs :
    (withTurns [.reset true] (deep .sample)).env.turns = .reset true :: [] ∧
    (withTurns [.reset false] (idle .awake)).env.turns = .reset false :: [] := by decide
theorem witness_PlacedInstructionRunsNext : decodePanel 0x00 = .ok .panelSettings ∧ decodePanel 0x07 = .ok .deepSleep := by
  decide
theorem witness_StepRunsTheDecodedInstruction :
    (withTurns [.host (.wr 0x00 1)] (idle .asleep)).env.turns = .host (.wr 0x00 1) :: [] ∧
    (deep .zero).env.turns = [] ∧ (deep .zero).st.busy = true ∧
    stepAt (deep .zero).st.op (deep .zero).st.step = some (.send 0x07) ∧ decodePanel 0x07 = .ok .deepSleep ∧
    (withTurns [.block] (deep .zero)).env.turns = .block :: [] := by decide

/-- Idle legal states: one that waits, and the two that no operation leaves. -/
theorem witness_legal_awake : Legal (idle .awake) := by
  constructor <;> decide
theorem witness_legal_released : Legal (idle .released) := by
  constructor <;> decide
theorem witness_legal_absent : Legal (idle .absent) := by
  constructor <;> decide
/-- A legal state inside a frame: MODE and ENABLE are `Lo` at the command byte. -/
def inFrame : State := { deep (.byte 0) with lines := { (deep (.byte 0)).lines with enable := .lo } }
theorem witness_legal_in_frame : Legal inFrame where
  idle := by decide
  running := by decide
  position := fun _ => ⟨.send 0x07, by decide, by decide⟩
  absentErr := by decide
  released := by decide
  driven := by decide
  polls := by decide
  imgCtl := by decide
  img := by decide
  pk := by decide
  pla := by decide
  plb := by decide
  opcodes := by decide
/-- A legal state at the last step of a SLEEP. -/
theorem witness_legal_at_completion : Legal (busyAt .awake 4 3 .zero) where
  idle := by decide
  running := by decide
  position := fun _ => ⟨.complete .asleep, by decide, by decide⟩
  absentErr := by decide
  released := by decide
  driven := by decide
  polls := by decide
  imgCtl := by decide
  img := by decide
  pk := by decide
  pla := by decide
  plb := by decide
  opcodes := by decide
/-- A legal state in which an abort comes next. -/
theorem witness_legal_at_abort : Legal (deep (.abort .busFailure)) where
  idle := by decide
  running := by decide
  position := fun _ => ⟨.send 0x07, by decide, by decide⟩
  absentErr := by decide
  released := by decide
  driven := by decide
  polls := by decide
  imgCtl := by decide
  img := by decide
  pk := by decide
  pla := by decide
  plb := by decide
  opcodes := by decide
/-- A legal state inside the encoder. -/
theorem witness_legal_in_encoder : Legal (busyAt .displaying 2 2 (.encode 6)) where
  idle := by decide
  running := by decide
  position := fun _ => ⟨.encode, by decide, by decide⟩
  absentErr := by decide
  released := by decide
  driven := by decide
  polls := by decide
  imgCtl := by decide
  img := by decide
  pk := by decide
  pla := by decide
  plb := by decide
  opcodes := by decide

theorem witness_StepKeepsLegal :
    seen (fun t => t.st.busy) (step (withTurns [.host (.wr 0x00 3)] (idle .awake))) = some true ∧
    seen (fun t => t.trace) (step (withDraws [false] [] inFrame)) = some [.byte .lo 0x07] := by decide
theorem witness_LegalStatesStep : Legal inFrame ∧ Legal (idle .absent) := ⟨witness_legal_in_frame, witness_legal_absent⟩
theorem witness_OperationInputsAreFixed :
    seen (fun t => t.regs.timeout) (step (withTurns [.host (.wr 0x10 5)] (deep .sample))) = some 0 ∧
    (deep .sample).st.busy = true ∧
    ∀ p, (takeTurn (withTurns [.host (.wr 0x10 5)] (deep .sample))).1 ≠ .reset p := by decide
theorem witness_MicroStepRecordsOneEvent :
    inFrame.st.busy = true ∧ (takeTurn inFrame).1 = .block ∧ ¬ (inFrame.st.op = 2 ∧ inFrame.st.step = 2) ∧
    (busyAt .displaying 2 2 (.encode 6)).st.op = 2 ∧ (busyAt .displaying 2 2 (.encode 6)).st.step = 2 ∧
    seen (fun t => (t.trace, t.st.step)) (step (busyAt .displaying 2 2 (.encode 6))) = some ([], 3) ∧
    (idle .awake).st.busy = false ∧ (idle .awake).env.turns = [] ∧
    (withTurns [.block] (idle .awake)).env.turns = .block :: [] := by decide
theorem witness_TerminalStates :
    (idle .released).st.state = .released ∧ (idle .absent).st.state = .absent ∧
    seen (fun t => t.st.state) (step (withTurns [.host (.wr 0x00 1)] (idle .released))) = some .released ∧
    ∀ p, (takeTurn (withTurns [.host (.wr 0x00 1)] (idle .released))).1 ≠ .reset p := by decide
theorem witness_OperationsStartWhereAccepted :
    (idle .asleep).st.busy = false ∧
    seen (fun t => (t.st.busy, t.st.op)) (step (withTurns [.host (.wr 0x00 1)] (idle .asleep))) = some (true, 1) ∧
    seen (fun t => (t.st.busy, t.st.op)) (step (withTurns [.host (.wr 0x00 2)] (idle .awake))) = some (true, 2) := by
  decide
theorem witness_RunningStatusIsFixed :
    seen (fun t => (t.st.busy, t.st.state)) (step (withTurns [.host (.wr 0x00 3)] (idle .awake))) =
      some (true, .clearing) ∧
    seen (fun t => (t.st.busy, t.st.state)) (step (withTurns [.host (.wr 0x00 1)] (idle .asleep))) =
      some (true, .asleep) ∧
    seen (fun t => (t.st.busy, t.st.op)) (step (withDraws [false] [] inFrame)) = some (true, 4) ∧
    (∀ p, (takeTurn (withDraws [false] [] inFrame)).1 ≠ .reset p) := by decide
theorem witness_OperationsEndWithOpDone :
    seen (fun t => (t.st.busy, t.st.state, t.st.err)) (step (busyAt .awake 4 3 .zero)) = some (false, .asleep, .none) ∧
    seen (fun t => (t.st.busy, t.st.state, t.st.err)) (step (deep (.abort .busFailure))) =
      some (false, .faulted, .busFailure) ∧
    (∀ p, (takeTurn (deep (.abort .busFailure))).1 ≠ .reset p) := by decide

end Sys2Proof.Tests
end

/-! PROOFS. The inputs of a running operation (10_state.md R37): only a host access while idle and a block reset can
change them, and no step changes the build. -/

namespace Sys2Proof.Proofs

open Sys2Proof.Machine Sys2Proof.Laws

/-- What a running operation reads that the host or the build fixes (10_state.md R37). The epoch is among them: it
fixes the bytes of IMG that nothing has written since block reset (log 5). -/
structure OperationInputs where
  cfg : Config
  regs : HostRegs
  img : Memory
  epoch : Nat

/-- The operation inputs a state holds. -/
def operationInputs (s : State) : OperationInputs where
  cfg := s.cfg
  regs := s.regs
  img := s.ram.img
  epoch := s.env.epoch

theorem operationInputs_eq_iff {s t : State} :
    operationInputs t = operationInputs s ↔
      t.cfg = s.cfg ∧ t.regs = s.regs ∧ t.ram.img = s.ram.img ∧ t.env.epoch = s.env.epoch := by
  simp [operationInputs]

theorem imgByte_of_operationInputs_eq {s t : State} (h : operationInputs t = operationInputs s) (a : Nat) :
    imgByte t a = imgByte s a := by
  obtain ⟨-, -, himg, hepoch⟩ := operationInputs_eq_iff.mp h
  rw [imgByte, imgByte, himg, hepoch]

/-! ### The block's micro-steps -/

@[simp] theorem operationInputs_moveTo (m : Micro) (s : State) :
    operationInputs (moveTo m s) = operationInputs s := rfl

@[simp] theorem operationInputs_takeTurn (s : State) :
    operationInputs (takeTurn s).2 = operationInputs s := by
  unfold takeTurn; split <;> rfl

@[simp] theorem operationInputs_sampleBusy (s : State) :
    operationInputs (sampleBusy s) = operationInputs s := by
  simp [operationInputs, sampleBusy]

@[simp] theorem operationInputs_afterSample (s : State) :
    operationInputs (afterSample s) = operationInputs s := by
  obtain ⟨-, h⟩ | ⟨-, -, h⟩ | ⟨-, -, h⟩ := afterSample_cases s <;> rw [h] <;> rfl

@[simp] theorem operationInputs_shiftThen (b : Byte) (next : Micro) (s : State) :
    operationInputs (shiftThen b next s) = operationInputs s := by
  simp [operationInputs, shiftThen_eq, shifted]

@[simp] theorem operationInputs_encodeByte (n : Nat) (s : State) :
    operationInputs (encodeByte n s) = operationInputs s := by
  simp [operationInputs]

theorem waitStep_operationInputs {s t : State} (h : waitStep s = some t) :
    operationInputs t = operationInputs s := by
  obtain ⟨-, rfl⟩ | ⟨-, rfl⟩ | ⟨-, rfl⟩ | ⟨-, rfl⟩ | ⟨-, rfl⟩ | ⟨-, rfl⟩ | ⟨-, rfl⟩ | ⟨-, rfl⟩ := waitStep_cases h
  case inr.inr.inl => simp
  all_goals rfl

theorem send_operationInputs {c : Byte} {src : DataSource} {s t : State} (h : send c src s = .next t) :
    operationInputs t = operationInputs s := by
  obtain ⟨-, rfl⟩ | ⟨-, rfl⟩ | ⟨-, rfl⟩ | ⟨-, rfl⟩ | ⟨k, -, -, rfl⟩ | ⟨-, rfl⟩ | ⟨-, rfl⟩ | ⟨e, -, rfl⟩ | hw :=
    send_cases h
  · rfl
  · rfl
  · simp
  · rfl
  · simp
  · rfl
  · rfl
  · rfl
  · exact waitStep_operationInputs hw

theorem pulseStep_operationInputs {s t : State} (h : pulseStep s = .next t) :
    operationInputs t = operationInputs s := by
  obtain ⟨-, rfl⟩ | ⟨-, rfl⟩ | ⟨-, rfl⟩ | ⟨-, rfl⟩ | ⟨-, rfl⟩ | ⟨-, rfl⟩ | ⟨-, rfl⟩ := pulseStep_cases h <;> rfl

theorem encodeStep_operationInputs {s t : State} (h : encodeStep s = .next t) :
    operationInputs t = operationInputs s := by
  obtain ⟨n, -, ⟨-, rfl⟩ | ⟨-, rfl⟩⟩ := encodeStep_cases h
  · simp
  · rfl

theorem sequencerStep_operationInputs {s t : State} (h : sequencerStep s = .next t) :
    operationInputs t = operationInputs s := by
  obtain ⟨-, rfl⟩ | ⟨-, x, -, hx⟩ := sequencerStep_cases h
  · rfl
  obtain ⟨-, hp⟩ | ⟨p, -, -, rfl⟩ | ⟨-, he⟩ | ⟨-, -, rfl⟩ | ⟨-, -, rfl⟩ | ⟨p, -, -, rfl⟩ := hx
  · exact pulseStep_operationInputs hp
  · rfl
  · exact encodeStep_operationInputs he
  · rfl
  · rfl
  · rfl

/-! ### The host's moves -/

theorem accept_operationInputs (op : OpCode) (s : State) : operationInputs (accept op s) = operationInputs s := by
  unfold accept; split <;> rfl

theorem hostCommand_operationInputs (op : OpCode) (s : State) :
    operationInputs (hostCommand op s) = operationInputs s := by
  obtain ⟨-, h⟩ | ⟨-, -, h⟩ | ⟨-, -, h⟩ := hostCommand_cases op s
  · rw [h]
  · rw [h, accept_operationInputs]
  · rw [h]; rfl

@[simp] theorem regWrite_cfg (off : Nat) (v : Word) (s : State) : (regWrite off v s).cfg = s.cfg := by
  unfold regWrite; split_ifs <;> rfl

@[simp] theorem imgWrite_cfg (i : Nat) (b : Byte) (s : State) : (imgWrite i b s).cfg = s.cfg := by
  unfold imgWrite; split_ifs <;> rfl

theorem regWrite_of_busy (off : Nat) (v : Word) {s : State} (hb : s.st.busy = true) : regWrite off v s = s := by
  simp [regWrite, hb]

theorem imgWrite_of_busy (i : Nat) (b : Byte) {s : State} (hb : s.st.busy = true) : imgWrite i b s = s := by
  simp [imgWrite, hb]

theorem hostAccess_cfg (a : HostAccess) (s : State) : (hostAccess a s).cfg = s.cfg := by
  cases a <;> simp [hostAccess]

/-- The busy lock (10_state.md R30, R31): a read or a poll changes no input, and a write is dropped. -/
theorem hostAccess_operationInputs_of_busy (a : HostAccess) {s : State} (hb : s.st.busy = true) :
    operationInputs (hostAccess a s) = operationInputs s := by
  cases a with
  | wr off v => rw [hostAccess, regWrite_of_busy off v hb]
  | imgWr i b => rw [hostAccess, imgWrite_of_busy i b hb]
  | rd off => rfl
  | imgRd i => rfl
  | waitIdle => rfl

/-! ### A step -/

/-- A step that can change the operation inputs is a block reset or a host access. -/
theorem step_operationInputs_cases {s t : State} (h : step s = .next t) :
    (∃ p, (takeTurn s).1 = .reset p ∧ t = blockReset p (takeTurn s).2) ∨
    (∃ a, t = hostAccess a (takeTurn s).2) ∨
    operationInputs t = operationInputs s := by
  obtain hr | ⟨a, i, -, hf, he⟩ | ⟨a, -, -, ht⟩ | ⟨-, i, hf, he⟩ | ⟨-, -, hq⟩ := step_cases h
  · exact .inl hr
  · obtain ⟨v, -, rfl⟩ := fetchHost_some hf
    rw [exec_decodeHost, Host.Outcome.next.injEq] at he
    rw [← he, hostCommand_operationInputs, operationInputs_takeTurn]
    exact .inr (.inr rfl)
  · exact .inr (.inl ⟨a, ht⟩)
  · obtain ⟨-, c, -, hd⟩ := fetchPanel_some hf
    obtain ⟨src, hsend, -⟩ := exec_decodePanel hd (takeTurn s).2
    rw [hsend] at he
    exact .inr (.inr ((send_operationInputs he).trans (operationInputs_takeTurn s)))
  · exact .inr (.inr ((sequencerStep_operationInputs hq).trans (operationInputs_takeTurn s)))

theorem step_cfg {s t : State} (h : step s = .next t) : t.cfg = s.cfg := by
  obtain ⟨p, -, rfl⟩ | ⟨a, rfl⟩ | hin := step_operationInputs_cases h
  · exact takeTurn_cfg s
  · rw [hostAccess_cfg, takeTurn_cfg]
  · exact (operationInputs_eq_iff.mp hin).1

theorem step_operationInputs_of_busy {s t : State} (h : step s = .next t) (hb : s.st.busy = true)
    (hr : ∀ p, (takeTurn s).1 ≠ .reset p) : operationInputs t = operationInputs s := by
  obtain ⟨p, hp, -⟩ | ⟨a, rfl⟩ | hin := step_operationInputs_cases h
  · exact absurd hp (hr p)
  · rw [hostAccess_operationInputs_of_busy a (by rw [takeTurn_st, hb]), operationInputs_takeTurn]
  · exact hin

/-- Settles O50: of the steps of a busy block only a block reset can change the operation inputs, and the bytes of IMG
are read off them. -/
theorem operationInputsAreFixed : Obligations.OperationInputsAreFixed := by
  intro s t h
  refine ⟨step_cfg h, fun hb hr => ?_⟩
  have hin := step_operationInputs_of_busy h hb hr
  obtain ⟨-, hregs, -, -⟩ := operationInputs_eq_iff.mp hin
  exact ⟨hregs, imgByte_of_operationInputs_eq hin⟩

end Sys2Proof.Proofs

/-! PROOFS. The poll loop of the wait (41_handshake.md R140): where it stands after any number of not-ready samples that
the budget allows, and so, with BUDGET = 0, after any number of them (R145). -/

namespace Sys2Proof.Proofs

open Sys2Proof.Machine Sys2Proof.Laws Sys2Proof.Safety

/-! ### Runs of one instruction -/

theorem execTimes_succ {i : Instr} {s t : State} (h : exec i s = .next t) (n : Nat) :
    execTimes i (n + 1) s = execTimes i n t := by
  rw [execTimes, h]

theorem execTimes_add {i : Instr} {m : Nat} {s t : State} (h : execTimes i m s = .next t) (n : Nat) :
    execTimes i (m + n) s = execTimes i n t := by
  induction m generalizing s with
  | zero =>
    rw [execTimes, Host.Outcome.next.injEq] at h
    rw [Nat.zero_add, h]
  | succ m ih =>
    cases hx : exec i s with
    | next u =>
      rw [execTimes_succ hx] at h
      rw [Nat.add_right_comm, execTimes_succ hx, ih h]
    | fault r => simp [execTimes, hx] at h
    | refused r => simp [execTimes, hx] at h

/-! ### A panel command inside its wait -/

theorem decodePanel_of_mem_sends {s : State} {i : Instr} {c : Byte} {d : List Byte}
    (h : (i, c, d) ∈ Expect.sends s) : decodePanel c = .ok i := by
  have hall : ∀ x ∈ Expect.sends s, decodePanel x.2.1 = .ok x.1 := by
    simp [Expect.sends, decodePanel]
  exact hall _ h

theorem send_of_waitStep {s t : State} (h : waitStep s = some t) (c : Byte) (src : DataSource) :
    send c src s = .next t := by
  obtain ⟨hs, -⟩ | ⟨hs, -⟩ | ⟨hs, -⟩ | ⟨hs, -⟩ | ⟨hs, -⟩ | ⟨hs, -⟩ | ⟨hs, -⟩ | ⟨hs, -⟩ := waitStep_cases h <;>
    simp [send, hs, h]

/-- Inside the wait every panel command does the wait's micro-step (41_handshake.md R140). -/
theorem exec_of_waitStep {i : Instr} {c : Byte} {s t : State} (hd : decodePanel c = .ok i)
    (h : waitStep s = some t) : exec i s = .next t := by
  obtain ⟨src, hsend, -⟩ := exec_decodePanel hd s
  rw [hsend, send_of_waitStep h]

/-! ### One sample -/

theorem waitStep_sample {s : State} (h : s.st.sub = .sample) : waitStep s = some (afterSample (sampleBusy s)) := by
  simp [waitStep, h]

theorem notReady_ne_busyReadyLevel (c : Config) : Expect.notReady c ≠ c.busyReadyLevel := by
  cases h : c.busyReadyLevel <;> simp [Expect.notReady, h]

theorem sampleBusy_listed {s : State} {v : Logic} {rest : List Logic} (h : s.env.busyIn = v :: rest) :
    sampleBusy s = { s with
      ser := { s.ser with busySync := v }
      env := { s.env with busyIn := rest }
      trace := s.trace ++ [.busySample v] } := by
  rw [sampleBusy, drawBusy_listed s v rest h]; rfl

theorem afterSample_of_notReady {s : State} (hr : s.ser.busySync = Expect.notReady s.cfg)
    (hb : budgetSpent s.regs (countPoll s.st.polls) = false) :
    afterSample s = moveTo .toggle { s with st := { s.st with polls := countPoll s.st.polls } } := by
  have hready : readsReady s = false := by
    simp [readsReady, hr, notReady_ne_busyReadyLevel]
  simp [afterSample, hready, hb]

theorem toNat_counted (m : Nat) : (Expect.counted m).toNat = min m 0xFFFFFFFF := by
  rw [Expect.counted, BitVec.toNat_ofNat]; omega

/-- The counter saturates (10_state.md R35). -/
theorem countPoll_counted (m : Nat) : countPoll (Expect.counted m) = Expect.counted (m + 1) := by
  have hm := toNat_counted m
  have hm1 := toNat_counted (m + 1)
  unfold countPoll
  split <;> bv_omega

/-- The budget is not spent by samples that it allows (41_handshake.md R142). -/
theorem budgetSpent_counted_of_allows {r : HostRegs} {m : Nat} (h : Expect.allows r.timeout m) :
    budgetSpent r (Expect.counted m) = false := by
  obtain h0 | hlt := h
  · simp [budgetSpent, budget, h0]
  · have hne : Expect.counted m ≠ r.timeout := by
      intro he
      have hto := r.timeout.isLt
      rw [← he, toNat_counted] at hlt
      omega
    simp [budgetSpent, budget, hne]

theorem toggled_blink (m : Nat) : toggled (Expect.blink m) = Expect.blink (m + 1) := by
  obtain h | h := Nat.mod_two_eq_zero_or_one m
  · have h' : (m + 1) % 2 = 1 := by omega
    simp [Expect.blink, h, h', toggled]
  · have h' : (m + 1) % 2 = 0 := by omega
    simp [Expect.blink, h, h', toggled]

/-! ### The poll loop -/

/-- Where a wait that started in `s` stands after `m` not-ready samples, before its next one; `busy` are the BUSY levels
still to come. -/
def pollState (s : State) (m : Nat) (busy : List Logic) : State :=
  { s with
    st := { s.st with sub := .sample, polls := Expect.counted m }
    lines := { s.lines with indicator := Expect.blink m }
    ser := { s.ser with busySync := if m = 0 then s.ser.busySync else Expect.notReady s.cfg }
    env := { s.env with busyIn := busy }
    trace := s.trace ++ [.lineSet .indicator .lo, .delay .tSettle] ++ Expect.polls s.cfg m }

/-- The first two micro-steps of the wait reach its poll loop. -/
theorem execTimes_pollLoop_enter {i : Instr} {c : Byte} {s : State} (hd : decodePanel c = .ok i)
    (hs : s.st.sub = .indLo) : execTimes i 2 s = .next (pollState s 0 s.env.busyIn) := by
  have hlo : waitStep s = some (moveTo .settle (drive .indicator .lo s)) := by simp [waitStep, hs]
  rw [execTimes_succ (exec_of_waitStep hd hlo), execTimes_succ (exec_of_waitStep hd rfl), execTimes]
  simp [pollState, moveTo, drive, delay, emit, Lines.set, Expect.blink, Expect.polls, Expect.counted]

/-- A not-ready sample within the budget is counted and goes on to the toggle. -/
theorem waitStep_pollState_notReady {s : State} {m : Nat} {busy : List Logic}
    (ha : Expect.allows s.regs.timeout (m + 1)) :
    waitStep (pollState s m (Expect.notReady s.cfg :: busy)) = some (moveTo .toggle
      { pollState s m busy with
        st := { s.st with polls := Expect.counted (m + 1) }
        ser := { s.ser with busySync := Expect.notReady s.cfg }
        trace := (pollState s m busy).trace ++ [.busySample (Expect.notReady s.cfg)] }) := by
  have hb : budgetSpent s.regs (countPoll (Expect.counted m)) = false := by
    rw [countPoll_counted, budgetSpent_counted_of_allows ha]
  rw [waitStep_sample rfl, sampleBusy_listed rfl, afterSample_of_notReady rfl hb]
  simp [pollState, countPoll_counted, moveTo]

/-- One turn of the poll loop: a not-ready sample within the budget, the toggle and the delay. -/
theorem execTimes_pollLoop_turn {i : Instr} {c : Byte} {s : State} {m : Nat} {busy : List Logic}
    (hd : decodePanel c = .ok i) (ha : Expect.allows s.regs.timeout (m + 1)) :
    execTimes i 3 (pollState s m (Expect.notReady s.cfg :: busy)) = .next (pollState s (m + 1) busy) := by
  rw [execTimes_succ (exec_of_waitStep hd (waitStep_pollState_notReady ha)),
    execTimes_succ (exec_of_waitStep hd rfl), execTimes_succ (exec_of_waitStep hd rfl), execTimes]
  simp [pollState, moveTo, drive, delay, emit, toggled_blink, Expect.polls]

theorem allows_of_succ {timeout : Word} {m : Nat} (h : Expect.allows timeout (m + 1)) : Expect.allows timeout m :=
  h.imp_right (Nat.lt_of_succ_lt)

/-- After `m` not-ready samples that the budget allows, the wait is still in its poll loop. -/
theorem execTimes_pollLoop {i : Instr} {c : Byte} {s : State} {m : Nat} {busy : List Logic}
    (hd : decodePanel c = .ok i) (hs : s.st.sub = .indLo) (ha : Expect.allows s.regs.timeout m)
    (hb : s.env.busyIn = List.replicate m (Expect.notReady s.cfg) ++ busy) :
    execTimes i (2 + 3 * m) s = .next (pollState s m busy) := by
  induction m generalizing busy with
  | zero => rw [execTimes_pollLoop_enter hd hs, hb]; rfl
  | succ m ih =>
    rw [List.replicate_succ', List.append_assoc, List.singleton_append] at hb
    rw [Nat.mul_succ, ← Nat.add_assoc, execTimes_add (ih (allows_of_succ ha) hb), execTimes_pollLoop_turn hd ha]

/-- Settles O22: BUDGET 0 allows any number of not-ready samples, so the wait is in its poll loop after each. -/
theorem unboundedWaitGoesOn : Obligations.UnboundedWaitGoesOn := by
  intro s i c d m busy hsend hs hbudget hbusy
  exact ⟨pollState s m busy, execTimes_pollLoop (decodePanel_of_mem_sends hsend) hs (.inl hbudget) hbusy,
    rfl, rfl, rfl, rfl, rfl, rfl⟩

end Sys2Proof.Proofs

/-! PROOFS. A write to CMD while idle (42_state_machine.md R160, R162, R168), for all eight codes at once, and what STATUS
shows while an operation runs (R169). -/

namespace Sys2Proof.Proofs

open Sys2Proof.Machine Sys2Proof.Laws Sys2Proof.Safety

/-! ### The check of a CMD write -/

/-- Every host code is the CMD write of its OP, whatever its ignored bits (30_encoding.md R90). -/
theorem exec_of_mem_hostCodes {g : BitVec 29} {i : Instr} {op : OpCode} (h : (i, op) ∈ Expect.hostCodes g)
    (s : State) : exec i s = .next (hostCommand op s) := by
  have hall : ∀ x ∈ Expect.hostCodes g, exec x.1 s = .next (hostCommand x.2 s) := by
    simp [Expect.hostCodes, exec, execReservedOp0, execWake, execDisplay, execClear, execSleep, execTeardown,
      execReservedOp6, execReservedOp7]
  exact hall _ h

theorem reservedOp_eq_true_iff (op : OpCode) : reservedOp op = true ↔ op ∈ [(0 : OpCode), 6, 7] := by
  simp [reservedOp, or_assoc]

theorem accepts_eq_false_iff (p : PanelState) (op : OpCode) : accepts p op = false ↔ op ∉ Expect.accepted p := by
  cases p <;> simp [accepts, Expect.accepted, and_assoc]

theorem imageFits_eq_false_iff (s : State) :
    imageFits s = false ↔
      ¬ (s.regs.imgCtl.getLsbD 0 = true ∧ (s.regs.imgDesc.extractLsb' 0 16).toNat = s.cfg.w ∧
        (s.regs.imgDesc.extractLsb' 16 16).toNat = s.cfg.h) := by
  rw [← Bool.not_eq_true]
  simp [imageFits, imgValid, imgW, imgH, and_assoc]

/-- `Check(op)` is the first error of R162 that applies. -/
theorem check_eq_firstError (s : State) (op : OpCode) : check s op = Expect.firstError s op := by
  simp only [check, Expect.firstError, reservedOp_eq_true_iff, accepts_eq_false_iff, imageFits_eq_false_iff]

/-! ### Acceptance and rejection -/

theorem hostCommand_of_check_eq_none {s : State} {op : OpCode} (hb : s.st.busy = false) (hc : check s op = .none) :
    hostCommand op s = accept op s := by
  simp [hostCommand, hb, hc]

/-- `REJECT` (R168), written out. -/
theorem hostCommand_of_check_ne_none {s : State} {op : OpCode} (hb : s.st.busy = false) (hc : check s op ≠ .none) :
    hostCommand op s = { s with
      st := { s.st with op := op, err := check s op }
      trace := s.trace ++ [.opDone op (check s op)] } := by
  simp [hostCommand, hb, hc, reject, emit]

/-- A code written to an idle block is rejected with the error its check gives (R168). -/
theorem exec_of_check_eq {g : BitVec 29} {s : State} {i : Instr} {op : OpCode} {e : Err}
    (h : (i, op) ∈ Expect.hostCodes g) (hb : s.st.busy = false) (hc : check s op = e) (he : e ≠ .none) :
    exec i s = .next { s with
      st := { s.st with op := op, err := e }
      trace := s.trace ++ [.opDone op e] } := by
  subst hc
  rw [exec_of_mem_hostCodes h, hostCommand_of_check_ne_none hb he]

/-- The operations whose first step is done at acceptance: DISPLAY and CLEAR (log 9). -/
theorem stepAt_one_eq_setState {op : OpCode} {p : PanelState} (h : stepAt op 1 = some (.setState p)) :
    (op = opDisplay ∧ p = .displaying) ∨ (op = opClear ∧ p = .clearing) := by
  have hop : op = BitVec.ofNat 3 op.toNat := by simp
  rw [show stepAt op 1 = (stepList op)[0]? from rfl] at h
  unfold stepList at h
  split at h
  case h_2 hn => rw [hop, hn]; exact .inl ⟨rfl, by cases h; rfl⟩
  case h_3 hn => rw [hop, hn]; exact .inr ⟨rfl, by cases h; rfl⟩
  all_goals cases h

/-- Everything an acceptance can do (R160): it sets the `st` fields only, and leaves STATE but in DISPLAY and CLEAR. -/
theorem accept_cases (op : OpCode) (s : State) :
    (op = opDisplay ∧ accept op s =
      { s with st := { s.st with
        op := op, busy := true, err := .none, state := .displaying, step := 2, sub := .zero } }) ∨
    (op = opClear ∧ accept op s =
      { s with st := { s.st with
        op := op, busy := true, err := .none, state := .clearing, step := 2, sub := .zero } }) ∨
    (op ≠ opDisplay ∧ op ≠ opClear ∧ accept op s =
      { s with st := { s.st with op := op, busy := true, err := .none, step := 1, sub := .zero } }) := by
  by_cases hd : op = opDisplay
  · subst hd; exact .inl ⟨rfl, rfl⟩
  by_cases hc : op = opClear
  · subst hc; exact .inr (.inl ⟨rfl, rfl⟩)
  refine .inr (.inr ⟨hd, hc, ?_⟩)
  unfold accept
  split
  · next p hp =>
    obtain ⟨h, -⟩ | ⟨h, -⟩ := stepAt_one_eq_setState hp
    · exact absurd h hd
    · exact absurd h hc
  · rfl

theorem accept_eq_setSt (op : OpCode) (s : State) : accept op s = { s with st := (accept op s).st } := by
  obtain ⟨-, h⟩ | ⟨-, h⟩ | ⟨-, -, h⟩ := accept_cases op s <;> rw [h]

@[simp] theorem accept_busy (op : OpCode) (s : State) : (accept op s).st.busy = true := by
  obtain ⟨-, h⟩ | ⟨-, h⟩ | ⟨-, -, h⟩ := accept_cases op s <;> rw [h]

@[simp] theorem accept_op (op : OpCode) (s : State) : (accept op s).st.op = op := by
  obtain ⟨-, h⟩ | ⟨-, h⟩ | ⟨-, -, h⟩ := accept_cases op s <;> rw [h]

@[simp] theorem accept_err (op : OpCode) (s : State) : (accept op s).st.err = .none := by
  obtain ⟨-, h⟩ | ⟨-, h⟩ | ⟨-, -, h⟩ := accept_cases op s <;> rw [h]

@[simp] theorem accept_polls (op : OpCode) (s : State) : (accept op s).st.polls = s.st.polls := by
  obtain ⟨-, h⟩ | ⟨-, h⟩ | ⟨-, -, h⟩ := accept_cases op s <;> rw [h]

theorem accept_state (op : OpCode) (s : State) :
    (accept op s).st.state =
      if op = opDisplay then .displaying else if op = opClear then .clearing else s.st.state := by
  obtain ⟨hop, h⟩ | ⟨hop, h⟩ | ⟨hd, hc, h⟩ := accept_cases op s <;> rw [h]
  · simp [hop]
  · simp [hop]
  · rw [if_neg hd, if_neg hc]

/-- Settles O14: `Check` is the first error of R162; it rejects, and where there is none the operation is accepted. -/
theorem commandsAreCheckedInOrder : Obligations.CommandsAreCheckedInOrder := by
  intro g s i op hmem hb
  rw [← check_eq_firstError]
  refine ⟨exec_of_check_eq hmem hb rfl, fun hc => ⟨accept op s, ?_, accept_eq_setSt op s, accept_busy op s,
    accept_op op s, accept_err op s, accept_polls op s⟩⟩
  rw [exec_of_mem_hostCodes hmem, hostCommand_of_check_eq_none hb hc]

theorem check_of_reserved {s : State} {op : OpCode} (ha : s.st.state ≠ .absent) (hr : reservedOp op = true) :
    check s op = .invalidOp := by
  simp [check, ha, hr]

/-- Settles O9: a reserved code fails the second check of R162. -/
theorem reservedCodesAreRejected : Obligations.ReservedCodesAreRejected := by
  intro g s hb ha
  have hreject {i : Instr} {op : OpCode} (hmem : (i, op) ∈ Expect.hostCodes g) (hr : reservedOp op = true) :=
    exec_of_check_eq hmem hb (check_of_reserved ha hr) (by decide)
  exact ⟨hreject (by simp [Expect.hostCodes]) rfl, hreject (by simp [Expect.hostCodes]) rfl,
    hreject (by simp [Expect.hostCodes]) rfl⟩

theorem check_of_absent {s : State} (ha : s.st.state = .absent) (op : OpCode) : check s op = .hardwareAbsent := by
  simp [check, ha]

/-- Settles O12: Absent fails the first check of R162, and its lines are released. -/
theorem absentRejectsEveryCode : Obligations.AbsentRejectsEveryCode :=
  ⟨fun _ hl ha => hl.released (by simp [linesReleased, ha]),
    fun _ _ _ op hmem hb ha => exec_of_check_eq hmem hb (check_of_absent ha op) (by decide)⟩

/-! ### What STATUS shows -/

/-- What STATUS shows (10_state.md R32). -/
structure Shown where
  state : PanelState
  busy : Bool
  op : OpCode
  err : Err

/-- The fields of STATUS a state holds. -/
def shown (s : State) : Shown where
  state := s.st.state
  busy := s.st.busy
  op := s.st.op
  err := s.st.err

theorem shown_eq_iff {s t : State} :
    shown t = shown s ↔
      t.st.state = s.st.state ∧ t.st.busy = s.st.busy ∧ t.st.op = s.st.op ∧ t.st.err = s.st.err := by
  simp [shown]

theorem shown_of_st_eq {s t : State} (h : t.st = s.st) : shown t = shown s := by
  simp [shown, h]

@[simp] theorem shown_moveTo (m : Micro) (s : State) : shown (moveTo m s) = shown s := rfl

@[simp] theorem shown_takeTurn (s : State) : shown (takeTurn s).2 = shown s := shown_of_st_eq (takeTurn_st s)

@[simp] theorem shown_afterSample (s : State) : shown (afterSample s) = shown s := by
  obtain ⟨-, h⟩ | ⟨-, -, h⟩ | ⟨-, -, h⟩ := afterSample_cases s <;> rw [h] <;> rfl

@[simp] theorem shown_sampleBusy (s : State) : shown (sampleBusy s) = shown s :=
  shown_of_st_eq (by simp [sampleBusy])

@[simp] theorem shown_shiftThen (b : Byte) (next : Micro) (s : State) : shown (shiftThen b next s) = shown s := by
  rw [shiftThen_eq, shown_moveTo]
  exact shown_of_st_eq (by simp [shifted])

theorem waitStep_shown {s t : State} (h : waitStep s = some t) : shown t = shown s := by
  obtain ⟨-, rfl⟩ | ⟨-, rfl⟩ | ⟨-, rfl⟩ | ⟨-, rfl⟩ | ⟨-, rfl⟩ | ⟨-, rfl⟩ | ⟨-, rfl⟩ | ⟨-, rfl⟩ := waitStep_cases h
  case inr.inr.inl => simp
  all_goals rfl

/-- A SEND leaves STATUS as it is, but for its abort. -/
theorem send_shown {c : Byte} {src : DataSource} {s t : State} (h : send c src s = .next t) :
    t.st.busy = false ∨ shown t = shown s := by
  obtain ⟨-, rfl⟩ | ⟨-, rfl⟩ | ⟨-, rfl⟩ | ⟨-, rfl⟩ | ⟨k, -, -, rfl⟩ | ⟨-, rfl⟩ | ⟨-, rfl⟩ | ⟨e, -, rfl⟩ | hw :=
    send_cases h
  case inr.inr.inl => exact .inr (shown_shiftThen _ _ _)
  case inr.inr.inr.inr.inl => exact .inr (shown_shiftThen _ _ _)
  case inr.inr.inr.inr.inr.inr.inr.inl => exact .inl rfl
  case inr.inr.inr.inr.inr.inr.inr.inr => exact .inr (waitStep_shown hw)
  all_goals exact .inr rfl

theorem pulseStep_shown {s t : State} (h : pulseStep s = .next t) : shown t = shown s := by
  obtain ⟨-, rfl⟩ | ⟨-, rfl⟩ | ⟨-, rfl⟩ | ⟨-, rfl⟩ | ⟨-, rfl⟩ | ⟨-, rfl⟩ | ⟨-, rfl⟩ := pulseStep_cases h <;> rfl

theorem encodeStep_shown {s t : State} (h : encodeStep s = .next t) : shown t = shown s := by
  obtain ⟨n, -, ⟨-, rfl⟩ | ⟨-, rfl⟩⟩ := encodeStep_cases h
  · exact shown_of_st_eq (by simp) |>.trans (shown_moveTo (.encode (n + 1)) s)
  · rfl

/-- No legal position is at a step that sets STATE (log 9). -/
theorem stepAt_ne_setState_of_legal {s : State} (hl : Legal s) (hb : s.st.busy = true) (p : PanelState) :
    stepAt s.st.op s.st.step ≠ some (.setState p) := by
  intro h
  obtain ⟨x, hx, hpos⟩ := hl.position hb
  rw [h, Option.some.injEq] at hx
  subst hx
  simp [positionIn] at hpos

/-- A sequencer step of a busy block leaves STATUS as it is, but for a completion and for a step that sets STATE. -/
theorem sequencerStep_shown {s t : State} (h : sequencerStep s = .next t)
    (hs : ∀ p, stepAt s.st.op s.st.step ≠ some (.setState p)) : t.st.busy = false ∨ shown t = shown s := by
  obtain ⟨-, rfl⟩ | ⟨-, x, hx, hcase⟩ := sequencerStep_cases h
  · exact .inr rfl
  obtain ⟨-, hp⟩ | ⟨p, rfl, -, -⟩ | ⟨-, he⟩ | ⟨-, -, rfl⟩ | ⟨-, -, rfl⟩ | ⟨p, -, -, rfl⟩ := hcase
  · exact .inr (pulseStep_shown hp)
  · exact absurd hx (hs p)
  · exact .inr (encodeStep_shown he)
  · exact .inr rfl
  · exact .inr rfl
  · exact .inl rfl

@[simp] theorem regWrite_st (off : Nat) (v : Word) (s : State) : (regWrite off v s).st = s.st := by
  unfold regWrite; split_ifs <;> rfl

@[simp] theorem imgWrite_st (i : Nat) (b : Byte) (s : State) : (imgWrite i b s).st = s.st := by
  unfold imgWrite; split_ifs <;> rfl

/-- A host access other than a CMD write leaves all the `st` fields. -/
theorem hostAccess_st (a : HostAccess) (s : State) : (hostAccess a s).st = s.st := by
  cases a <;> simp [hostAccess]

theorem turns_of_takeTurn_eq_host {s : State} {a : HostAccess} (h : (takeTurn s).1 = .host a) :
    ∃ rest, s.env.turns = .host a :: rest := by
  unfold takeTurn at h
  split at h
  · cases h
  · next t rest ht => exact ⟨rest, by rw [ht, show t = .host a from h]⟩

/-- Where a step that is no reset leaves BUSY 1, STATUS has not changed, or the step is the CMD write that started the
operation. -/
theorem step_shown_cases {s t : State} (hl : Legal s) (h : step s = .next t) (hb : t.st.busy = true)
    (hr : ∀ p, (takeTurn s).1 ≠ .reset p) :
    (s.st.busy = true ∧ shown t = shown s) ∨
    (s.st.busy = false ∧ ∃ v rest, s.env.turns = .host (.wr 0x00 v) :: rest ∧
      t = accept (v.extractLsb' 0 3) (takeTurn s).2) := by
  have hkeep {u : State} (hu : u.st.busy = false ∨ shown u = shown (takeTurn s).2) (hbu : u.st.busy = true) :
      s.st.busy = true ∧ shown u = shown s := by
    obtain hu | hu := hu
    · simp [hu] at hbu
    · rw [shown_takeTurn] at hu
      obtain ⟨-, hbusy, -⟩ := shown_eq_iff.mp hu
      exact ⟨hbusy ▸ hbu, hu⟩
  obtain ⟨p, hp, -⟩ | ⟨a, i, ha, hf, he⟩ | ⟨a, -, -, rfl⟩ | ⟨-, i, hf, he⟩ | ⟨-, -, hq⟩ := step_cases h
  · exact absurd hp (hr p)
  · obtain ⟨v, rfl, rfl⟩ := fetchHost_some hf
    obtain ⟨rest, hrest⟩ := turns_of_takeTurn_eq_host ha
    rw [exec_decodeHost, Host.Outcome.next.injEq] at he
    obtain ⟨-, hc⟩ | ⟨hidle, -, hc⟩ | ⟨hidle, -, hc⟩ := hostCommand_cases (v.extractLsb' 0 3) (takeTurn s).2
    · exact .inl (hkeep (.inr (by rw [← he, hc])) hb)
    · exact .inr ⟨by simpa using hidle, v, rest, hrest, by rw [← he, hc]⟩
    · rw [← he, hc, reject_st] at hb
      exact absurd (hidle.symm.trans hb) Bool.false_ne_true
  · exact .inl (hkeep (.inr (shown_of_st_eq (hostAccess_st a _))) hb)
  · obtain ⟨-, c, -, hd⟩ := fetchPanel_some hf
    obtain ⟨src, hsend, -⟩ := exec_decodePanel hd (takeTurn s).2
    exact .inl (hkeep (send_shown (hsend ▸ he)) hb)
  · by_cases hs : s.st.busy = true
    · exact .inl (hkeep (sequencerStep_shown hq (by simpa using stepAt_ne_setState_of_legal hl hs)) hb)
    · obtain ⟨-, rfl⟩ | ⟨hs', -⟩ := sequencerStep_cases hq
      · exact absurd (by simpa using hb) hs
      · exact absurd (by simpa using hs') hs

theorem state_of_runsIn_display {op : OpCode} {p : PanelState} (h : runsIn op p = true) (hop : op = 2) :
    p = .displaying := by
  subst hop; cases p <;> simp_all [runsIn]

theorem state_of_runsIn_clear {op : OpCode} {p : PanelState} (h : runsIn op p = true) (hop : op = 3) :
    p = .clearing := by
  subst hop; cases p <;> simp_all [runsIn]

/-- Settles O54: while busy the status is the legal one, and no step changes it; an acceptance sets it. -/
theorem runningStatusIsFixed : Obligations.RunningStatusIsFixed := by
  intro s t hl h hb hr
  obtain ⟨hs, hshown⟩ | ⟨hs, v, rest, hturns, rfl⟩ := step_shown_cases hl h hb hr
  · obtain ⟨herr, hruns⟩ := hl.running hs
    obtain ⟨hstate, -, hop, he⟩ := shown_eq_iff.mp hshown
    rw [← hop, ← hstate] at hruns
    exact ⟨he.trans herr, state_of_runsIn_display hruns, state_of_runsIn_clear hruns, fun _ _ => hstate, fun _ => hop,
      by simp [hs]⟩
  · rw [accept_op, accept_err, accept_state, takeTurn_st]
    refine ⟨rfl, fun h2 => if_pos h2, fun h3 => ?_, fun h2 h3 => ?_, by simp [hs], fun _ => ⟨v, rest, hturns, rfl⟩⟩
    · rw [if_neg (by simp [h3]), if_pos h3]
    · rw [if_neg h2, if_neg h3]

end Sys2Proof.Proofs

/-! PROOFS. A whole SEND (40_bus_transport.md R120) in closed form: its frame with no bus failure, and its wait with any
number of not-ready samples that the budget allows (41_handshake.md R140). -/

namespace Sys2Proof.Proofs

open Sys2Proof.Machine Sys2Proof.Laws Sys2Proof.Safety

/-! ### The data of a SEND -/

theorem map_range_getD (l : List Byte) : (List.range l.length).map (l.getD · 0) = l := by
  apply List.ext_getElem
  · simp
  · intro k hk hk'
    simp [List.getD_eq_getElem?_getD, hk']

theorem lutRom_of_lt (c : Config) (t : Nat) {k : Nat} (hk : k < 42) :
    lutRom c (42 * t + k) = (lutTable c t).toList.getD k 0 := by
  rw [lutRom, show (42 * t + k) / 42 = t by omega, show (42 * t + k) % 42 = k by omega]

theorem bytes_lut (s : State) (t : Nat) : (DataSource.lut t).bytes s = (lutTable s.cfg t).toList := by
  have hlen : (DataSource.lut t).length s.cfg = (lutTable s.cfg t).toList.length := by
    rw [Vector.length_toList]; rfl
  rw [DataSource.bytes, hlen]
  refine .trans (List.map_congr_left fun k hk => ?_) (map_range_getD _)
  exact lutRom_of_lt s.cfg t (by simpa using hk)

theorem bytes_white (s : State) : DataSource.white.bytes s = List.replicate s.cfg.npl 0xFF := by
  rw [DataSource.bytes, List.eq_replicate_iff]
  simp [DataSource.length, DataSource.byteAt, whiteByte]

theorem bytes_oldDataSource (s : State) : (oldDataSource s).bytes s = Expect.oldData s := by
  unfold oldDataSource Expect.oldData
  split
  · exact bytes_white s
  · rfl

theorem bytes_newDataSource (s : State) : (newDataSource s).bytes s = Expect.newData s := by
  unfold newDataSource Expect.newData
  split
  · exact bytes_white s
  · rfl

/-- Every panel command is the SEND of its opcode with its data (30_encoding.md R95). -/
theorem exec_of_mem_sends {s : State} {i : Instr} {c : Byte} {d : List Byte} (h : (i, c, d) ∈ Expect.sends s) :
    ∃ src : DataSource, exec i s = send c src s ∧ src.bytes s = d := by
  have hall : ∀ x ∈ Expect.sends s, ∃ src : DataSource, exec x.1 s = send x.2.1 src s ∧ src.bytes s = x.2.2 := by
    simp only [Expect.sends, List.forall_mem_cons, List.not_mem_nil, false_implies, implies_true, and_true]
    exact ⟨⟨.pwr, rfl, map_range_getD _⟩, ⟨.btst, rfl, map_range_getD _⟩, ⟨.none, rfl, rfl⟩,
      ⟨.psr, rfl, map_range_getD _⟩, ⟨.pll, rfl, map_range_getD _⟩, ⟨.tres, rfl, map_range_getD _⟩,
      ⟨.vdcs, rfl, map_range_getD _⟩, ⟨.cdi, rfl, map_range_getD _⟩, ⟨.lut 0, rfl, bytes_lut s 0⟩,
      ⟨.lut 1, rfl, bytes_lut s 1⟩, ⟨.lut 2, rfl, bytes_lut s 2⟩, ⟨.lut 3, rfl, bytes_lut s 3⟩,
      ⟨.lut 4, rfl, bytes_lut s 4⟩, ⟨oldDataSource s, rfl, bytes_oldDataSource s⟩,
      ⟨newDataSource s, rfl, bytes_newDataSource s⟩, ⟨.none, rfl, rfl⟩, ⟨.none, rfl, rfl⟩,
      ⟨.deepSleepByte, rfl, rfl⟩⟩
  exact hall _ h

theorem length_bytes (src : DataSource) (s : State) : (src.bytes s).length = src.length s.cfg := by
  simp [DataSource.bytes]

theorem byteAt_eq_getElem (src : DataSource) (s : State) {k : Nat} (hk : k < (src.bytes s).length) :
    src.byteAt s k = (src.bytes s)[k] := by
  simp [DataSource.bytes]

/-! ### The frame's micro-steps -/

/-- A listed draw of no bus failure lets the frame go on. -/
theorem shiftThen_listed_ok {s : State} {rest : List Bool} (h : s.env.busErrIn = false :: rest) (b : Byte)
    (next : Micro) :
    shiftThen b next s =
      moveTo next { shifted b s with env := { s.env with busErrIn := rest } } := by
  rw [shiftThen_eq, drawBusErr_listed (shifted b s) false rest h]
  rfl

section
variable {s : State} {i : Instr} {c : Byte} {d : List Byte}

theorem exec_of_sub_zero (h : (i, c, d) ∈ Expect.sends s) (hs : s.st.sub = .zero) :
    exec i s = .next (moveTo .enableLo (drive .mode .lo s)) := by
  obtain ⟨src, hsend, -⟩ := exec_of_mem_sends h
  simp [hsend, send, hs]

theorem exec_of_sub_enableLo (h : (i, c, d) ∈ Expect.sends s) (hs : s.st.sub = .enableLo) :
    exec i s = .next (moveTo (.byte 0) (drive .enable .lo s)) := by
  obtain ⟨src, hsend, -⟩ := exec_of_mem_sends h
  simp [hsend, send, hs]

theorem exec_of_sub_modeHi (h : (i, c, d) ∈ Expect.sends s) (hs : s.st.sub = .modeHi) :
    exec i s = .next (moveTo (afterData 0 d.length) (drive .mode .hi s)) := by
  obtain ⟨src, hsend, rfl⟩ := exec_of_mem_sends h
  simp [hsend, send, hs, length_bytes]

theorem exec_of_sub_command (h : (i, c, d) ∈ Expect.sends s) (hs : s.st.sub = .byte 0) :
    exec i s = .next (shiftThen c .modeHi s) := by
  obtain ⟨src, hsend, -⟩ := exec_of_mem_sends h
  simp [hsend, send, hs]

/-- The command byte, with no bus failure. -/
theorem exec_listed_command {errs : List Bool} (h : (i, c, d) ∈ Expect.sends s) (hs : s.st.sub = .byte 0)
    (he : s.env.busErrIn = false :: errs) :
    exec i s = .next (moveTo .modeHi { shifted c s with env := { s.env with busErrIn := errs } }) := by
  rw [exec_of_sub_command h hs, shiftThen_listed_ok he]

theorem exec_of_sub_data (h : (i, c, d) ∈ Expect.sends s) {k : Nat} (hs : s.st.sub = .byte (k + 1))
    (hk : k < d.length) : exec i s = .next (shiftThen d[k] (afterData (k + 1) d.length) s) := by
  obtain ⟨src, hsend, rfl⟩ := exec_of_mem_sends h
  rw [← byteAt_eq_getElem src s hk]
  rw [length_bytes] at hk ⊢
  simp [hsend, send, hs, hk]

/-- A data byte, with no bus failure. -/
theorem exec_listed_data {k : Nat} {errs : List Bool} (h : (i, c, d) ∈ Expect.sends s) (hs : s.st.sub = .byte (k + 1))
    (he : s.env.busErrIn = false :: errs) (hk : k < d.length) :
    exec i s = .next (moveTo (afterData (k + 1) d.length)
      { shifted d[k] s with env := { s.env with busErrIn := errs } }) := by
  rw [exec_of_sub_data h hs hk, shiftThen_listed_ok he]

theorem exec_of_sub_enableHi (h : (i, c, d) ∈ Expect.sends s) (hs : s.st.sub = .enableHi) :
    exec i s = .next (moveTo .indLo (drive .enable .hi s)) := by
  obtain ⟨src, hsend, -⟩ := exec_of_mem_sends h
  simp [hsend, send, hs]

end

/-! ### The whole frame -/

theorem execTimes_cons {i : Instr} {n : Nat} {s u t : State} (h : exec i s = .next u)
    (hn : execTimes i n u = .next t) : execTimes i (n + 1) s = .next t := by
  rw [execTimes_succ h, hn]

/-- The framer after some bytes. -/
def shiftAll (bs : List Byte) (r : Serial) : Serial := bs.foldl (fun r b => shiftOut b r) r

@[simp] theorem shiftAll_busySync (bs : List Byte) (r : Serial) : (shiftAll bs r).busySync = r.busySync := by
  induction bs generalizing r with
  | nil => rfl
  | cons b bs ih => exact ih (shiftOut b r)

theorem shiftAll_append_singleton (bs : List Byte) (b : Byte) (r : Serial) :
    shiftAll (bs ++ [b]) r = shiftOut b (shiftAll bs r) := by
  simp [shiftAll]

/-- Where a frame that started in `s` stands after its command byte and `k` data bytes, `errs` being the `bus_err` draws
still to come. -/
def frameState (s : State) (c : Byte) (d : List Byte) (k : Nat) (errs : List Bool) : State :=
  { s with
    st := { s.st with sub := afterData k d.length }
    lines := { s.lines with enable := .lo, mode := .hi, sclk := .lo, mosi := .lo }
    ser := shiftAll (c :: d.take k) s.ser
    env := { s.env with busErrIn := errs }
    trace := s.trace ++ [.lineSet .mode .lo, .lineSet .enable .lo, .byte .lo c, .lineSet .mode .hi]
      ++ (d.take k).map (.byte .hi ·) }

/-- The first four micro-steps of a frame send the command byte. -/
theorem execTimes_command {s : State} {i : Instr} {c : Byte} {d : List Byte} {errs : List Bool}
    (h : (i, c, d) ∈ Expect.sends s) (hs : s.st.sub = .zero) (he : s.env.busErrIn = false :: errs) :
    execTimes i 4 s = .next (frameState s c d 0 errs) := by
  refine execTimes_cons (exec_of_sub_zero h hs) ?_
  refine execTimes_cons (exec_of_sub_enableLo h rfl) ?_
  refine execTimes_cons (exec_listed_command h rfl he) ?_
  refine execTimes_cons (exec_of_sub_modeHi h rfl) ?_
  rw [execTimes]
  simp [frameState, shiftAll, shifted, moveTo, drive, emit]

/-- A frame's next data byte. -/
theorem exec_frameState {s : State} {i : Instr} {c : Byte} {d : List Byte} {k : Nat} {errs : List Bool}
    (h : (i, c, d) ∈ Expect.sends s) (hk : k < d.length) :
    exec i (frameState s c d k (false :: errs)) = .next (frameState s c d (k + 1) errs) := by
  have hsub : (frameState s c d k (false :: errs)).st.sub = .byte (k + 1) := by simp [frameState, afterData, hk]
  have hser : shiftAll (c :: d.take (k + 1)) s.ser = shiftOut d[k] (shiftAll (c :: d.take k) s.ser) := by
    rw [← List.take_append_getElem hk, ← List.cons_append, shiftAll_append_singleton]
  rw [exec_listed_data (s := frameState s c d k (false :: errs)) h hsub rfl hk]
  simp only [frameState, shifted, moveTo, hser]
  rw [← List.take_append_getElem hk, List.map_append]
  simp
/-- With no bus failure so far, a frame sends its data bytes in order (R120, R121). -/
theorem execTimes_frameState {s : State} {i : Instr} {c : Byte} {d : List Byte} {k : Nat} {errs : List Bool}
    (h : (i, c, d) ∈ Expect.sends s) (hs : s.st.sub = .zero) (hk : k ≤ d.length)
    (he : s.env.busErrIn = List.replicate (k + 1) false ++ errs) :
    execTimes i (4 + k) s = .next (frameState s c d k errs) := by
  induction k generalizing errs with
  | zero => exact execTimes_command h hs he
  | succ k ih =>
    rw [List.replicate_succ', List.append_assoc, List.singleton_append] at he
    rw [← Nat.add_assoc, execTimes_add (ih (Nat.le_of_succ_le hk) he), execTimes_succ (exec_frameState h hk), execTimes]

/-- Where a SEND that started in `s` stands after its frame. -/
def framed (s : State) (c : Byte) (d : List Byte) (errs : List Bool) : State :=
  { s with
    st := { s.st with sub := .indLo }
    lines := { s.lines with enable := .hi, mode := .hi, sclk := .lo, mosi := .lo }
    ser := shiftAll (c :: d) s.ser
    env := { s.env with busErrIn := errs }
    trace := s.trace ++ Expect.frame c d }

/-- With no bus failure a frame ends with ENABLE up (R120). -/
theorem execTimes_frame {s : State} {i : Instr} {c : Byte} {d : List Byte} {errs : List Bool}
    (h : (i, c, d) ∈ Expect.sends s) (hs : s.st.sub = .zero)
    (he : s.env.busErrIn = List.replicate (d.length + 1) false ++ errs) :
    execTimes i (4 + d.length + 1) s = .next (framed s c d errs) := by
  have hsub : (frameState s c d d.length errs).st.sub = .enableHi := by simp [frameState, afterData]
  rw [execTimes_add (execTimes_frameState h hs le_rfl he), execTimes_succ (exec_of_sub_enableHi (s := frameState s c d d.length errs) h hsub), execTimes]
  simp [frameState, framed, moveTo, drive, emit, Expect.frame]

/-! ### The whole wait -/

theorem afterSample_of_ready {s : State} (hr : s.ser.busySync = s.cfg.busyReadyLevel) :
    afterSample s = moveTo .readyHi s := by
  simp [afterSample, readsReady, hr]

/-- Where a wait that started in `s` stands before its last delay, after `m` not-ready samples and a ready one. -/
def readyState (s : State) (m : Nat) (busy : List Logic) : State :=
  { s with
    st := { s.st with sub := .lastDelay, polls := Expect.counted m }
    lines := { s.lines with indicator := .hi }
    ser := { s.ser with busySync := s.cfg.busyReadyLevel }
    env := { s.env with busyIn := busy }
    trace := s.trace ++ [.lineSet .indicator .lo, .delay .tSettle] ++ Expect.polls s.cfg m
      ++ [.busySample s.cfg.busyReadyLevel, .lineSet .indicator .hi] }

/-- A wait that sees a ready sample within its budget leaves the poll loop (41_handshake.md R140). -/
theorem execTimes_readyState {i : Instr} {c : Byte} {s : State} {m : Nat} {busy : List Logic}
    (hd : decodePanel c = .ok i) (hs : s.st.sub = .indLo) (ha : Expect.allows s.regs.timeout m)
    (hb : s.env.busyIn = Expect.samples s.cfg m ++ busy) :
    execTimes i (2 + 3 * m + 2) s = .next (readyState s m busy) := by
  have hsample : waitStep (pollState s m (s.cfg.busyReadyLevel :: busy)) = some (moveTo .readyHi
      { pollState s m busy with
        ser := { s.ser with busySync := s.cfg.busyReadyLevel }
        trace := (pollState s m busy).trace ++ [.busySample s.cfg.busyReadyLevel] }) := by
    rw [waitStep_sample rfl, sampleBusy_listed rfl, afterSample_of_ready rfl]
    rfl
  rw [Expect.samples, List.append_assoc, List.singleton_append] at hb
  rw [execTimes_add (execTimes_pollLoop hd hs ha hb), execTimes_succ (exec_of_waitStep hd hsample),
    execTimes_succ (exec_of_waitStep hd rfl), execTimes]
  simp [readyState, pollState, moveTo, drive, emit]

/-! ### The whole SEND -/

/-- Where a SEND that started in `s` leaves the block: at the next step. `errs` and `busy` are the draws still to
come. -/
def sent (s : State) (c : Byte) (d : List Byte) (m : Nat) (errs : List Bool) (busy : List Logic) : State :=
  { s with
    st := { s.st with step := s.st.step + 1, sub := .zero, polls := Expect.counted m }
    lines := Expect.afterSend s.lines
    ser := { shiftAll (c :: d) s.ser with busySync := s.cfg.busyReadyLevel }
    env := { s.env with busErrIn := errs, busyIn := busy }
    trace := s.trace ++ (Expect.frame c d ++ Expect.wait s.cfg m) }

/-- A SEND up to its last delay. -/
theorem execTimes_toLastDelay {s : State} {i : Instr} {c : Byte} {d : List Byte} {m : Nat} {errs : List Bool}
    {busy : List Logic} (h : (i, c, d) ∈ Expect.sends s) (hs : s.st.sub = .zero)
    (ha : Expect.allows s.regs.timeout m) (he : s.env.busErrIn = List.replicate (d.length + 1) false ++ errs)
    (hb : s.env.busyIn = Expect.samples s.cfg m ++ busy) :
    execTimes i (4 + d.length + 1 + (2 + 3 * m + 2)) s = .next (readyState (framed s c d errs) m busy) := by
  rw [execTimes_add (execTimes_frame h hs he)]
  exact execTimes_readyState (decodePanel_of_mem_sends h) rfl ha hb

/-- The last delay ends the SEND, and with it the step. -/
theorem exec_lastDelay {s : State} {i : Instr} {c : Byte} {d : List Byte} {m : Nat} {errs : List Bool}
    {busy : List Logic} (hd : decodePanel c = .ok i) :
    exec i (readyState (framed s c d errs) m busy) = .next (sent s c d m errs busy) := by
  rw [exec_of_waitStep hd rfl]
  simp [readyState, framed, sent, nextStep, delay, emit, Expect.afterSend, Expect.wait]

end Sys2Proof.Proofs

/-! PROOFS. Runs of a quiet host (no turn listed): a panel command's micro-steps are the machine's steps, a list of
transactions runs in order (42_state_machine.md R163, R171 to R173), and what the transaction log makes of its events
(00_scope.md R13). -/

namespace Sys2Proof.Proofs

open Sys2Proof.Machine Sys2Proof.Laws Sys2Proof.Safety

/-! ### Runs of the machine -/

theorem steps_succ {s u : State} (h : step s = .next u) (n : Nat) : steps (n + 1) s = steps n u := by
  rw [steps, h]

theorem steps_add {m : Nat} {s u : State} (h : steps m s = .next u) (n : Nat) : steps (m + n) s = steps n u := by
  induction m generalizing s with
  | zero =>
    rw [steps, Host.Outcome.next.injEq] at h
    rw [Nat.zero_add, h]
  | succ m ih =>
    cases hx : step s with
    | next v =>
      rw [steps_succ hx] at h
      rw [Nat.add_right_comm, steps_succ hx, ih h]
    | fault r => simp [steps, hx] at h
    | refused r => simp [steps, hx] at h

/-- A run that records one event per step (10_state.md R24): `evs`, in as many steps. -/
def Records (s : State) (evs : List Event) (t : State) : Prop :=
  steps evs.length s = .next t ∧ t.trace = s.trace ++ evs

theorem Records.nil (s : State) : Records s [] s := ⟨rfl, (List.append_nil _).symm⟩

theorem Records.append {s u t : State} {es fs : List Event} (h : Records s es u) (h' : Records u fs t) :
    Records s (es ++ fs) t := by
  obtain ⟨hsteps, htrace⟩ := h
  obtain ⟨hsteps', htrace'⟩ := h'
  exact ⟨by rw [List.length_append, steps_add hsteps, hsteps'], by rw [htrace', htrace, List.append_assoc]⟩

theorem Records.cons {s u t : State} {e : Event} {fs : List Event} (h : step s = .next u)
    (he : u.trace = s.trace ++ [e]) (h' : Records u fs t) : Records s (e :: fs) t :=
  Records.append (es := [e]) ⟨by rw [List.length_singleton, steps_succ h, steps], he⟩ h'

/-- The block runs, no other agent is about to move, and the current step is `x`. -/
structure AtStep (x : SeqStep) (s : State) : Prop where
  busy : s.st.busy = true
  quiet : s.env.turns = []
  here : stepAt s.st.op s.st.step = some x

theorem step_of_quiet_send {s : State} {c : Byte} {i : Instr} (h : AtStep (.send c) s) (hd : decodePanel c = .ok i) :
    step s = exec i s := by
  have hf : fetchPanel s = some i := by simp [fetchPanel, h.busy, h.here, hd, Except.toOption]
  rw [step, takeTurn_nil s h.quiet]
  simp [hf]

theorem step_of_quiet_sequencer {s : State} {x : SeqStep} (h : AtStep x s) (hx : ∀ c, x ≠ .send c) :
    step s = sequencerStep s := by
  have hf : fetchPanel s = none := by
    unfold fetchPanel
    rw [if_pos h.busy, h.here]
    cases x <;> simp_all
  rw [step, takeTurn_nil s h.quiet]
  simp [hf]

/-- A write to CMD runs the OP of its word (42_state_machine.md R160). -/
theorem step_of_cmdWrite {s : State} {v : Word} {rest : List Turn} (h : s.env.turns = .host (.wr 0x00 v) :: rest) :
    step s = .next (hostCommand (v.extractLsb' 0 3) { s with env := { s.env with turns := rest } }) := by
  rw [step, takeTurn, h]
  exact exec_decodeHost v _

/-! ### A SEND as a run of the machine -/

theorem turns_step_shiftThen (b : Byte) (next : Micro) (s : State) :
    (shiftThen b next s).env.turns = s.env.turns ∧ (shiftThen b next s).st.step = s.st.step := by
  simp [shiftThen_eq, shifted]

theorem turns_step_afterSample (s : State) :
    (afterSample s).env.turns = s.env.turns ∧ (afterSample s).st.step = s.st.step := by
  obtain ⟨-, h⟩ | ⟨-, -, h⟩ | ⟨-, -, h⟩ := afterSample_cases s <;> rw [h] <;> exact ⟨rfl, rfl⟩

theorem turns_step_sampleBusy (s : State) :
    (sampleBusy s).env.turns = s.env.turns ∧ (sampleBusy s).st.step = s.st.step := by
  simp [sampleBusy]

/-- A wait never moves to an earlier step, and takes no turn. -/
theorem waitStep_turns_step {s t : State} (h : waitStep s = some t) :
    t.env.turns = s.env.turns ∧ s.st.step ≤ t.st.step := by
  obtain ⟨-, rfl⟩ | ⟨-, rfl⟩ | ⟨-, rfl⟩ | ⟨-, rfl⟩ | ⟨-, rfl⟩ | ⟨-, rfl⟩ | ⟨-, rfl⟩ | ⟨-, rfl⟩ := waitStep_cases h
  case inr.inr.inl =>
    obtain ⟨hturns, hstep⟩ := turns_step_afterSample (sampleBusy s)
    obtain ⟨hturns', hstep'⟩ := turns_step_sampleBusy s
    exact ⟨hturns.trans hturns', (hstep.trans hstep').ge⟩
  case inr.inr.inr.inr.inr.inr.inr => exact ⟨rfl, Nat.le_succ _⟩
  all_goals exact ⟨rfl, le_rfl⟩

/-- A SEND never moves to an earlier step, but for its abort, and takes no turn. -/
theorem send_turns_step {c : Byte} {src : DataSource} {s t : State} (h : send c src s = .next t) :
    t.env.turns = s.env.turns ∧ (t.st.busy = true → s.st.step ≤ t.st.step) := by
  obtain ⟨-, rfl⟩ | ⟨-, rfl⟩ | ⟨-, rfl⟩ | ⟨-, rfl⟩ | ⟨k, -, -, rfl⟩ | ⟨-, rfl⟩ | ⟨-, rfl⟩ | ⟨e, -, rfl⟩ | hw :=
    send_cases h
  case inr.inr.inl => exact (turns_step_shiftThen _ _ s).imp_right fun hs _ => hs.ge
  case inr.inr.inr.inr.inl => exact (turns_step_shiftThen _ _ s).imp_right fun hs _ => hs.ge
  case inr.inr.inr.inr.inr.inr.inr.inl => exact ⟨rfl, fun hb => by simp at hb⟩
  case inr.inr.inr.inr.inr.inr.inr.inr => exact (waitStep_turns_step hw).imp_right fun hs _ => hs
  all_goals exact ⟨rfl, fun _ => le_rfl⟩

/-- A panel command that leaves the block busy has kept BUSY, OP and the listed turns, and has not moved to an earlier
step. -/
theorem exec_keeps_operation {c : Byte} {i : Instr} {s t : State} (hd : decodePanel c = .ok i)
    (h : exec i s = .next t) (hb : t.st.busy = true) :
    s.st.busy = true ∧ t.st.op = s.st.op ∧ t.env.turns = s.env.turns ∧ s.st.step ≤ t.st.step := by
  obtain ⟨src, hsend, -⟩ := exec_decodePanel hd s
  rw [hsend] at h
  obtain ⟨hturns, hstep⟩ := send_turns_step h
  obtain hidle | hshown := send_shown h
  · simp [hidle] at hb
  · obtain ⟨-, hbusy, hop, -⟩ := shown_eq_iff.mp hshown
    exact ⟨hbusy ▸ hb, hop, hturns, hstep hb⟩

theorem exec_of_execTimes_succ {i : Instr} {n : Nat} {s t : State} (h : execTimes i (n + 1) s = .next t) :
    ∃ u, exec i s = .next u ∧ execTimes i n u = .next t := by
  rw [execTimes] at h
  split at h
  · next u hu => exact ⟨u, hu, h⟩
  · cases h
  · cases h

theorem execTimes_keeps_operation {c : Byte} {i : Instr} {n : Nat} {s t : State} (hd : decodePanel c = .ok i)
    (h : execTimes i n s = .next t) (hb : t.st.busy = true) : s.st.busy = true ∧ s.st.step ≤ t.st.step := by
  induction n generalizing s with
  | zero =>
    rw [execTimes, Host.Outcome.next.injEq] at h
    subst h
    exact ⟨hb, le_rfl⟩
  | succ n ih =>
    obtain ⟨u, hu, hn⟩ := exec_of_execTimes_succ h
    obtain ⟨hbu, hle⟩ := ih hn
    obtain ⟨hbs, -, -, hle'⟩ := exec_keeps_operation hd hu hbu
    exact ⟨hbs, hle'.trans hle⟩

/-- The micro-steps of a panel command that end inside its step are the steps of the machine. -/
theorem steps_of_execTimes {c : Byte} {i : Instr} {n : Nat} {s t : State} (hd : decodePanel c = .ok i)
    (hat : AtStep (.send c) s) (h : execTimes i n s = .next t) (hb : t.st.busy = true)
    (hstep : t.st.step = s.st.step) : steps n s = .next t ∧ AtStep (.send c) t := by
  induction n generalizing s with
  | zero =>
    rw [execTimes, Host.Outcome.next.injEq] at h
    exact h ▸ ⟨rfl, hat⟩
  | succ n ih =>
    obtain ⟨u, hu, hn⟩ := exec_of_execTimes_succ h
    obtain ⟨hbu, hle⟩ := execTimes_keeps_operation hd hn hb
    obtain ⟨-, hop, hturns, hle'⟩ := exec_keeps_operation hd hu hbu
    have hsame : u.st.step = s.st.step := le_antisymm (hle.trans_eq hstep) hle'
    have hatu : AtStep (.send c) u := ⟨hbu, hturns.trans hat.quiet, by rw [hop, hsame, hat.here]⟩
    rw [steps_succ ((step_of_quiet_send hat hd).trans hu)]
    exact ih hatu hn (hstep.trans hsame.symm)

theorem length_frame (c : Byte) (d : List Byte) : (Expect.frame c d).length = 4 + d.length + 1 := by
  simp [Expect.frame]; omega

theorem length_polls (c : Config) (m : Nat) : (Expect.polls c m).length = 3 * m := by
  induction m with
  | zero => rfl
  | succ m ih => simp [Expect.polls, ih]; omega

theorem length_wait (c : Config) (m : Nat) : (Expect.wait c m).length = 2 + 3 * m + 2 + 1 := by
  simp [Expect.wait, length_polls]; omega

/-- A whole SEND of the machine, with no bus failure and a wait that ends within its budget. -/
theorem records_send {s : State} {i : Instr} {c : Byte} {d : List Byte} {m : Nat} {errs : List Bool}
    {busy : List Logic} (hat : AtStep (.send c) s) (h : (i, c, d) ∈ Expect.sends s) (hs : s.st.sub = .zero)
    (ha : Expect.allows s.regs.timeout m) (he : s.env.busErrIn = List.replicate (d.length + 1) false ++ errs)
    (hb : s.env.busyIn = Expect.samples s.cfg m ++ busy) :
    Records s (Expect.frame c d ++ Expect.wait s.cfg m) (sent s c d m errs busy) := by
  have hd := decodePanel_of_mem_sends h
  obtain ⟨hrun, hlast⟩ := steps_of_execTimes hd hat (execTimes_toLastDelay h hs ha he hb) hat.busy rfl
  refine ⟨?_, rfl⟩
  rw [List.length_append, length_frame, length_wait, ← Nat.add_assoc, steps_add hrun,
    steps_succ ((step_of_quiet_send hlast hd).trans (exec_lastDelay hd)), steps]

/-! ### A list of transactions -/

/-- The steps of an operation from number `n` on send the opcodes of `ts`. -/
def SendsFrom (op : OpCode) : Nat → List (Byte × List Byte) → Prop
  | _, [] => True
  | n, x :: ts => stepAt op n = some (.send x.1) ∧ SendsFrom op (n + 1) ts

/-- Where the transactions whose waits saw the numbers `ms` of not-ready samples leave the block that started them in
`s`; `ser` is what the framer and the synchroniser then hold. -/
def afterTransactions (s : State) (ms : List Nat) (evs : List Event) (ser : Serial) (errs : List Bool)
    (busy : List Logic) : State :=
  { s with
    st := { s.st with
      step := s.st.step + ms.length, sub := .zero, polls := (ms.map Expect.counted).getLastD s.st.polls }
    lines := if ms = [] then s.lines else Expect.afterSend s.lines
    ser := ser
    env := { s.env with busErrIn := errs, busyIn := busy }
    trace := s.trace ++ evs }

theorem afterTransactions_nil {s : State} (hs : s.st.sub = .zero) :
    afterTransactions s [] [] s.ser s.env.busErrIn s.env.busyIn = s := by
  obtain ⟨cfg, st, regs, lines, ser, ram, env, hostData, trace⟩ := s
  obtain ⟨state, busy, op, err, step, sub, polls⟩ := st
  obtain rfl : sub = .zero := hs
  simp [afterTransactions]

theorem afterTransactions_sent (s : State) (c : Byte) (d : List Byte) (m : Nat) (ms : List Nat) (evs : List Event)
    (ser : Serial) (errs errs' : List Bool) (busy busy' : List Logic) :
    afterTransactions (sent s c d m errs' busy') ms evs ser errs busy =
      afterTransactions s (m :: ms) (Expect.frame c d ++ Expect.wait s.cfg m ++ evs) ser errs busy := by
  have hlines : (if ms = [] then Expect.afterSend s.lines else Expect.afterSend (Expect.afterSend s.lines)) =
      Expect.afterSend s.lines := by split <;> rfl
  have hpolls : ((m :: ms).map Expect.counted).getLastD s.st.polls =
      (ms.map Expect.counted).getLastD (Expect.counted m) := by
    rw [List.map_cons, List.getLastD_cons]
  rw [afterTransactions, afterTransactions, hpolls]
  simp [sent, hlines, Nat.add_assoc, Nat.add_comm 1]

/-- Transactions at consecutive steps run in order, each with its wait. -/
theorem records_transactions {s : State} {ts : List (Byte × List Byte)} {ms : List Nat} {errs : List Bool}
    {busy : List Logic} (hb : s.st.busy = true) (hq : s.env.turns = []) (hs : s.st.sub = .zero)
    (hfrom : SendsFrom s.st.op s.st.step ts) (hsends : ∀ x ∈ ts, ∃ i, (i, x) ∈ Expect.sends s)
    (hlen : ms.length = ts.length) (ha : ∀ m ∈ ms, Expect.allows s.regs.timeout m)
    (he : s.env.busErrIn = List.replicate (Expect.byteCount ts) false ++ errs)
    (hy : s.env.busyIn = Expect.allSamples s.cfg ms ++ busy) :
    ∃ ser, Records s (Expect.transactions s.cfg ts ms)
      (afterTransactions s ms (Expect.transactions s.cfg ts ms) ser errs busy) := by
  induction ts generalizing s ms with
  | nil =>
    obtain rfl : ms = [] := List.length_eq_zero_iff.mp hlen
    obtain rfl : s.env.busErrIn = errs := he
    obtain rfl : s.env.busyIn = busy := hy
    refine ⟨s.ser, ?_⟩
    rw [Expect.transactions.eq_def]
    exact (afterTransactions_nil hs).symm ▸ Records.nil s
  | cons x ts ih =>
    obtain ⟨c, d⟩ := x
    obtain _ | ⟨m, ms⟩ := ms
    · simp at hlen
    obtain ⟨hhere, hrest⟩ := hfrom
    obtain ⟨⟨i, hi⟩, hsends'⟩ := List.forall_mem_cons.mp hsends
    obtain ⟨ham, ha'⟩ := List.forall_mem_cons.mp ha
    rw [Expect.byteCount, List.replicate_add, List.append_assoc] at he
    rw [Expect.allSamples, List.append_assoc] at hy
    have hfirst := records_send ⟨hb, hq, hhere⟩ hi hs ham he hy
    obtain ⟨ser, hothers⟩ := ih (s := sent s c d m (List.replicate (Expect.byteCount ts) false ++ errs)
      (Expect.allSamples s.cfg ms ++ busy)) hb hq rfl hrest hsends' (by simpa using hlen) ha' rfl rfl
    refine ⟨ser, ?_⟩
    rw [afterTransactions_sent] at hothers
    exact hfirst.append hothers

/-! ### The transaction log -/

/-- An event that opens, extends and closes no record and does not move ENABLE (00_scope.md R13). -/
def LogsNothing (e : Event) : Prop := ∀ c : Cut, c.next e = (none, c)

theorem logFrom_append_of_logsNothing {es : List Event} (h : ∀ e ∈ es, LogsNothing e) (enable : Level)
    (current : Option Transaction) (rest : List Event) :
    logFrom enable current (es ++ rest) = logFrom enable current rest := by
  induction es with
  | nil => rfl
  | cons e es ih =>
    obtain ⟨he, hes⟩ := List.forall_mem_cons.mp h
    simp [logFrom, he { enable := enable, current := current }, ih hes]

theorem logFrom_data (c : Byte) (sent d : List Byte) (rest : List Event) :
    logFrom .lo (some { cmd := c, data := sent }) (d.map (.byte .hi ·) ++ rest) =
      logFrom .lo (some { cmd := c, data := sent ++ d }) rest := by
  induction d generalizing sent with
  | nil => simp
  | cons b d ih => simpa [logFrom, Cut.next] using ih (sent ++ [b])

/-- A whole frame is one record. -/
theorem logFrom_frame (c : Byte) (d : List Byte) (rest : List Event) :
    logFrom .hi none (Expect.frame c d ++ rest) = { cmd := c, data := d } :: logFrom .hi none rest := by
  simpa [Expect.frame, logFrom, Cut.next] using logFrom_data c [] d (.lineSet .enable .hi :: rest)

theorem logsNothing_indicator (l : Level) : LogsNothing (.lineSet .indicator l) := fun _ => rfl
theorem logsNothing_reset (l : Level) : LogsNothing (.lineSet .reset l) := fun _ => rfl
theorem logsNothing_delay (t : Hold) : LogsNothing (.delay t) := fun _ => rfl
theorem logsNothing_busySample (l : Logic) : LogsNothing (.busySample l) := fun _ => rfl

theorem logsNothing_of_mem_polls (c : Config) (m : Nat) : ∀ e ∈ Expect.polls c m, LogsNothing e := by
  induction m with
  | zero => simp [Expect.polls]
  | succ m ih =>
    simp only [Expect.polls, List.forall_mem_append, List.forall_mem_cons]
    exact ⟨ih, logsNothing_busySample _, logsNothing_indicator _, logsNothing_delay _, by simp⟩

theorem logsNothing_of_mem_wait (c : Config) (m : Nat) : ∀ e ∈ Expect.wait c m, LogsNothing e := by
  simp only [Expect.wait, List.forall_mem_append, List.forall_mem_cons]
  exact ⟨⟨⟨logsNothing_indicator _, logsNothing_delay _, by simp⟩, logsNothing_of_mem_polls c m⟩,
    logsNothing_busySample _, logsNothing_indicator _, logsNothing_delay _, by simp⟩

/-- The log of a list of transactions is the list, whatever their waits saw. -/
theorem logFrom_transactions (c : Config) {ts : List (Byte × List Byte)} {ms : List Nat} (h : ms.length = ts.length)
    (rest : List Event) :
    logFrom .hi none (Expect.transactions c ts ms ++ rest) = Expect.records ts ++ logFrom .hi none rest := by
  induction ts generalizing ms with
  | nil => rw [Expect.transactions.eq_def]; rfl
  | cons x ts ih =>
    obtain ⟨op, d⟩ := x
    obtain _ | ⟨m, ms⟩ := ms
    · simp at h
    rw [Expect.transactions, List.append_assoc, List.append_assoc, logFrom_frame,
      logFrom_append_of_logsNothing (logsNothing_of_mem_wait c m), ih (by simpa using h)]
    rfl

end Sys2Proof.Proofs

/-! PROOFS. WAKE (42_state_machine.md R163, R164, R165): the reset pulse, the 13 transactions and the completion. -/

namespace Sys2Proof.Proofs

open Sys2Proof.Machine Sys2Proof.Laws Sys2Proof.Safety

/-! ### The reset pulse -/

theorem step_of_pulseStep {s t : State} (h : AtStep .resetPulse s) (hp : pulseStep s = .next t) : step s = .next t := by
  rw [step_of_quiet_sequencer h (by simp), sequencerStep]
  simp [h.busy, h.here, hp]

theorem AtStep.moveTo_drive {x : SeqStep} {s : State} (h : AtStep x s) (m : Micro) (ln : Line) (v : Level) :
    AtStep x (moveTo m (drive ln v s)) :=
  ⟨h.busy, h.quiet, h.here⟩

theorem AtStep.moveTo_delay {x : SeqStep} {s : State} (h : AtStep x s) (m : Micro) (t : Hold) :
    AtStep x (moveTo m (delay t s)) :=
  ⟨h.busy, h.quiet, h.here⟩

/-- Where the reset pulse leaves a block that started it in `s`. -/
def pulsed (s : State) : State :=
  { s with
    st := { s.st with step := s.st.step + 1, sub := .zero }
    lines := { s.lines with reset := .hi }
    trace := s.trace ++ Expect.pulse }

/-- The reset pulse (42_state_machine.md R164). -/
theorem records_pulse {s : State} (h : AtStep .resetPulse s) (hs : s.st.sub = .zero) :
    Records s Expect.pulse (pulsed s) := by
  have h1 := h.moveTo_drive (.pulse 1) .reset .lo
  have h2 := h1.moveTo_delay (.pulse 2) .tReset
  have h3 := h2.moveTo_drive (.pulse 3) .reset .hi
  have h4 := h3.moveTo_delay (.pulse 4) .tReset
  have h5 := h4.moveTo_drive (.pulse 5) .reset .lo
  have h6 := h5.moveTo_delay (.pulse 6) .tReset
  have hfirst : pulseStep s = .next (moveTo (.pulse 1) (drive .reset .lo s)) := by
    simp [pulseStep, pulseIndex, hs]
  refine .cons (step_of_pulseStep h hfirst) rfl ?_
  refine .cons (step_of_pulseStep h1 rfl) rfl ?_
  refine .cons (step_of_pulseStep h2 rfl) rfl ?_
  refine .cons (step_of_pulseStep h3 rfl) rfl ?_
  refine .cons (step_of_pulseStep h4 rfl) rfl ?_
  refine .cons (step_of_pulseStep h5 rfl) rfl ?_
  refine .cons (step_of_pulseStep h6 rfl) rfl ?_
  exact ⟨by simp [steps, nextStep, moveTo, drive, delay, emit, pulsed, Expect.pulse], by simp [pulsed, Expect.pulse]⟩

theorem logsNothing_of_mem_pulse : ∀ e ∈ Expect.pulse, LogsNothing e := by
  simp [Expect.pulse, logsNothing_reset, logsNothing_delay]

/-! ### The transactions -/

theorem mem_sends_of_mem_wakeSends (s : State) : ∀ x ∈ Expect.wakeSends s.cfg, ∃ i, (i, x) ∈ Expect.sends s := by
  simp [Expect.wakeSends, Expect.sends]

theorem sendsFrom_wake (c : Config) : SendsFrom opWake 2 (Expect.wakeSends c) := by
  simp [SendsFrom, Expect.wakeSends, stepAt, stepList, wakeSteps]

/-! ### Acceptance and completion -/

theorem check_wake {s : State} (h : s.st.state = .uninitialized ∨ s.st.state = .asleep ∨ s.st.state = .faulted) :
    check s opWake = .none := by
  obtain h | h | h := h <;> simp [check, reservedOp, accepts, h]

/-- An operation written to an idle block that accepts it, with no other turn listed, starts (42_state_machine.md
R160). -/
theorem step_of_accepted {s : State} {v : Word} {op : OpCode} (hv : v.extractLsb' 0 3 = op)
    (hb : s.st.busy = false) (hq : s.env.turns = [.host (.wr 0x00 v)]) (hc : check s op = .none) :
    step s = .next (accept op { s with env := { s.env with turns := [] } }) := by
  subst hv
  rw [step_of_cmdWrite hq]
  exact congrArg Host.Outcome.next (hostCommand_of_check_eq_none hb hc)

theorem records_complete {s : State} {p : PanelState} (h : AtStep (.complete p) s) (hs : s.st.sub = .zero) :
    Records s [.opDone s.st.op .none] (complete p s) := by
  refine .cons ?_ rfl (.nil _)
  rw [step_of_quiet_sequencer h (by simp), sequencerStep]
  simp [h.busy, h.here, single, hs]

/-- Where an accepted WAKE leaves the block: before its reset pulse. -/
def waking (s : State) : State :=
  { s with
    st := { s.st with busy := true, op := opWake, err := .none, step := 1, sub := .zero }
    env := { s.env with turns := [] } }

theorem getLastD_map_counted {ms : List Nat} (h : ms ≠ []) (p : Word) :
    (ms.map Expect.counted).getLastD p = Expect.counted (ms.getLastD 0) := by
  obtain ⟨m, hm⟩ := Option.ne_none_iff_exists'.mp (mt List.getLast?_eq_none_iff.mp h)
  simp [List.getLastD_eq_getLast?, List.getLast?_map, hm]

/-- Settles O27: the pulse, the transactions and the completion run one after the other; the pulse, the waits and the
OpDone leave nothing in the log. -/
theorem wakeRunsItsSequence : Obligations.WakeRunsItsSequence := by
  intro s v ms errs busy hidle hstate hv hturns hlen ha he hy
  have haccept : step s = .next (waking s) := step_of_accepted hv hidle hturns (check_wake hstate)
  have hpulse := records_pulse (s := waking s) ⟨rfl, rfl, rfl⟩ rfl
  obtain ⟨ser, hsends⟩ := records_transactions (s := pulsed (waking s)) rfl rfl rfl (sendsFrom_wake s.cfg)
    (mem_sends_of_mem_wakeSends (pulsed (waking s))) hlen ha he hy
  have hdone := records_complete (p := .awake)
    (s := afterTransactions (pulsed (waking s)) ms (Expect.transactions s.cfg (Expect.wakeSends s.cfg) ms) ser errs busy)
    ⟨rfl, rfl, by rw [afterTransactions, hlen]; rfl⟩ rfl
  obtain ⟨hsteps, htrace⟩ := (hpulse.append hsends).append hdone
  have hne : ms ≠ [] := by rintro rfl; simp at hlen
  refine ⟨_, _, htrace, ?_, rfl, ?_, ?_, rfl, rfl, rfl, ?_⟩
  · rw [steps_add (steps_succ haccept 0), hsteps]
  · rw [complete_st, afterTransactions, getLastD_map_counted hne]
    rfl
  · rw [complete_lines, afterTransactions, if_neg hne]
    rfl
  · rw [List.append_assoc, logFrom_append_of_logsNothing logsNothing_of_mem_pulse, logFrom_transactions _ hlen]
    simp [logFrom, Cut.next]

end Sys2Proof.Proofs

/-! PROOFS. The encoder's tables and its sampling window (43_framebuffer_encoder.md R201, R202, R204): what `quantise`,
the codes, the plane bits and `sampleIndex` are, each said once. -/

namespace Sys2Proof.Proofs

open Sys2Proof.Machine

/-! ### Shades, codes and plane bits -/

@[simp] theorem shadeOfCode_code (sh : Shade) : shadeOfCode sh.code = sh := by
  cases sh <;> rfl

theorem planeBits_shadeOfCode (c : BitVec 2) : (shadeOfCode c).planeBits = (c.getLsbD 1, c.getLsbD 0) := by
  decide +revert

/-- The plane bits are the code, bit by bit, so they tell the codes apart. -/
theorem planeBits_shadeOfCode_injective : Function.Injective fun c => (shadeOfCode c).planeBits := by
  intro c c' h
  simp only [planeBits_shadeOfCode, Prod.mk.injEq] at h
  obtain ⟨h1, h0⟩ := h
  refine BitVec.eq_of_getLsbD_eq fun i hi => ?_
  match i, hi with
  | 0, _ => exact h0
  | 1, _ => exact h1

@[simp] theorem planeBits_intendedShade (x : Bool × Bool) : (intendedShade x).planeBits = x := by
  obtain ⟨_ | _, _ | _⟩ := x <;> rfl

/-- Settles O33: the code of a pair of plane bits is that of its intended shade, and no other code has the pair. -/
theorem planeBitsOfShades : Obligations.PlaneBitsOfShades := by
  refine ⟨⟨rfl, rfl⟩, ⟨rfl, rfl⟩, ⟨rfl, rfl⟩, ⟨rfl, rfl⟩, planeBits_shadeOfCode, fun x => ?_⟩
  have hx : (shadeOfCode (intendedShade x).code).planeBits = x := by simp
  exact ⟨(intendedShade x).code, hx, fun c' hc' => planeBits_shadeOfCode_injective (hc'.trans hx.symm)⟩

/-! ### Quantisation -/

theorem toNat_quantise (p : Byte) : (quantise p).toNat = p.toNat / 64 := by
  rw [quantise, BitVec.extractLsb'_toNat, Nat.shiftRight_eq_div_pow]
  omega

/-- Each of the four ranges of pixel values has the code of its shade (43_framebuffer_encoder.md R201). -/
theorem quantise_eq_code (p : Byte) :
    quantise p = (if p.toNat ≤ 0x3F then Shade.black else if p.toNat ≤ 0x7F then .dark
      else if p.toNat ≤ 0xBF then .light else .white).code := by
  have hp := p.isLt
  apply BitVec.eq_of_toNat_eq
  rw [toNat_quantise]
  split_ifs <;> simp only [Shade.code, BitVec.reduceToNat] <;> omega

/-- Settles O32: a pixel's code is the code of its range's shade, and a code has one shade. -/
theorem quantisationTable : Obligations.QuantisationTable := by
  intro p
  refine ⟨rfl, ?_, ?_⟩
  · rw [quantise_eq_code]
    split_ifs <;> rfl
  · rw [quantise_eq_code, shadeOfCode_code]

/-! ### The sampling window -/

theorem samplePixel_of_nominal {s : State} (h : s.cfg.sampling = .nominal) (i : Nat) :
    samplePixel s i = imgByte s i := by
  rw [samplePixel, sampleIndex, h]

/-- Inside the image, `(i - 3) mod NPIX` wraps for the first three scan positions only. -/
theorem sampleIndex_of_legacy {c : Config} {i : Nat} (h : c.sampling = .legacy) (hi : i < c.npix)
    (hn : 3 ≤ c.npix) : sampleIndex c i = if 3 ≤ i then i - 3 else c.npix - 3 + i := by
  rw [sampleIndex, h]
  dsimp only
  split_ifs with h3
  · rw [Int.emod_eq_of_lt (by omega) (by omega)]
    omega
  · rw [← Int.add_emod_right, Int.emod_eq_of_lt (by omega) (by omega)]
    omega

theorem eight_dvd_npix {c : Config} (h : c.wellFormed = true) : 8 ∣ c.npix := by
  simp only [Config.wellFormed, Config.planesWhole, Bool.and_eq_true, beq_iff_eq] at h
  obtain ⟨-, hplanes⟩ := h
  exact Nat.dvd_of_mod_eq_zero hplanes

/-- Settles O34: an image that has a position has eight, so the wrap of the first three stays inside it. -/
theorem samplingWindow : Obligations.SamplingWindow := by
  intro s i hwf hi
  refine ⟨fun h => samplePixel_of_nominal h i, fun h => ?_⟩
  have h8 : 8 ≤ s.cfg.npix := Nat.le_of_dvd (by omega) (eight_dvd_npix hwf)
  rw [samplePixel, sampleIndex_of_legacy h hi (by omega)]

end Sys2Proof.Proofs

/-! PROOFS. The two rejections the state and the image registers cause (60_exceptions.md R262, R267): `InvalidState` is
the third check of R162, `InvalidInput` the fourth. -/

namespace Sys2Proof.Proofs

open Sys2Proof.Machine Sys2Proof.Laws Sys2Proof.Safety

/-! ### InvalidState -/

theorem check_of_not_accepts {s : State} {op : OpCode} (ha : s.st.state ≠ .absent) (hr : reservedOp op = false)
    (hacc : accepts s.st.state op = false) : check s op = .invalidState := by
  simp [check, ha, hr, hacc]

/-- DISPLAY, CLEAR and SLEEP are accepted in Awake only (42_state_machine.md R161). -/
theorem accepts_eq_false_of_ne_awake {p : PanelState} {op : OpCode} (hop : op ∈ [opDisplay, opClear, opSleep])
    (hp : p ≠ .awake) : accepts p op = false := by
  cases p with
  | awake => exact absurd rfl hp
  | uninitialized | asleep | faulted =>
    simp only [List.mem_cons, List.not_mem_nil, or_false] at hop
    obtain rfl | rfl | rfl := hop <;> rfl
  | displaying | clearing | released | absent => rfl

/-- Settles O10: the code is no reserved one and the state is not Absent, so the row of R161 decides. -/
theorem wrongStateIsRejected : Obligations.WrongStateIsRejected := by
  intro g s i op hb h
  have hreject (hmem : (i, op) ∈ Expect.hostCodes g) (hr : reservedOp op = false) (ha : s.st.state ≠ .absent)
      (hacc : accepts s.st.state op = false) :=
    exec_of_check_eq hmem hb (check_of_not_accepts ha hr hacc) (by decide)
  obtain ⟨rfl, rfl, hs⟩ | ⟨hop, hs⟩ | ⟨rfl, rfl, hs⟩ := h
  · refine hreject (by simp [Expect.hostCodes]) rfl ?_ ?_ <;> obtain hs | hs := hs <;> simp [hs, accepts]
  · have hne : s.st.state ≠ .absent ∧ s.st.state ≠ .awake := by
      obtain hs | hs | hs | hs := hs <;> simp [hs]
    obtain ⟨ha, hw⟩ := hne
    obtain ⟨rfl, rfl⟩ | ⟨rfl, rfl⟩ | ⟨rfl, rfl⟩ := hop <;>
      exact hreject (by simp [Expect.hostCodes]) rfl ha (accepts_eq_false_of_ne_awake (by decide) hw)
  · exact hreject (by simp [Expect.hostCodes]) rfl (by simp [hs]) (by simp [hs, accepts])

/-! ### InvalidInput -/

theorem check_display_of_not_fits {s : State} (hs : s.st.state = .awake) (hf : imageFits s = false) :
    check s opDisplay = .invalidInput := by
  simp [check, hs, hf, reservedOp, accepts]

/-- Settles O11: DISPLAY is accepted in Awake, so an image that does not fit fails the last check of R162. -/
theorem missizedImageIsRejected : Obligations.MissizedImageIsRejected := by
  intro g s hb hs h
  have hf : imageFits s = false := by
    rw [imageFits_eq_false_iff]
    rintro ⟨hvalid, hw, hh⟩
    obtain h | h | h := h
    · exact Bool.false_ne_true (h.symm.trans hvalid)
    · exact h hw
    · exact h hh
  exact exec_of_check_eq (g := g) (by simp [Expect.hostCodes]) hb (check_display_of_not_fits hs hf) (by decide)

end Sys2Proof.Proofs

/-! PROOFS. Block reset (70_reset_and_hazards.md R290, R291, R293): the step of a reset turn is CONSTRUCT, whatever the
state, and what CONSTRUCT leaves in each field for a draw of `hw_present` (10_state.md R39). -/

namespace Sys2Proof.Proofs

open Sys2Proof.Machine Sys2Proof.Laws

/-! ### What CONSTRUCT leaves -/

@[simp] theorem blockReset_cfg (p : Bool) (s : State) : (blockReset p s).cfg = s.cfg := rfl
@[simp] theorem blockReset_st (p : Bool) (s : State) : (blockReset p s).st = constructFsm p := rfl
@[simp] theorem blockReset_regs (p : Bool) (s : State) :
    (blockReset p s).regs = { imgDesc := 0, imgCtl := 0, timeout := 0 } := rfl
@[simp] theorem blockReset_lines (p : Bool) (s : State) : (blockReset p s).lines = constructLines p := rfl
@[simp] theorem blockReset_trace (p : Bool) (s : State) : (blockReset p s).trace = s.trace ++ [.blockReset p] := rfl

/-- The `st` column of 10_state.md R39: the draw decides STATE and ERR, and the other fields do not depend on it. -/
theorem constructFsm_eq (p : Bool) :
    constructFsm p =
      { state := if p then .uninitialized else .absent
        busy := false
        op := 0
        err := if p then .none else .hardwareAbsent
        step := 0
        sub := .zero
        polls := 0 } := by
  cases p <;> rfl

/-! ### The step of a block reset -/

theorem step_of_reset {s : State} {p : Bool} {rest : List Turn} (h : s.env.turns = .reset p :: rest) :
    step s = .next (blockReset p (takeTurn s).2) := by
  simp only [step, takeTurn, h]

/-- Settles O45: the step of a reset turn is CONSTRUCT, and taking the turn changed neither the build nor the trace. The
lines are the one value given per draw. -/
theorem blockResetConstructs : Obligations.BlockResetConstructs := by
  intro s p rest h
  refine ⟨_, step_of_reset h, ?_⟩
  simp only [blockReset_trace, blockReset_cfg, blockReset_st, blockReset_regs, blockReset_lines, takeTurn_trace,
    takeTurn_cfg, constructFsm_eq, true_and]
  constructor <;> rintro rfl <;> rfl

end Sys2Proof.Proofs

/-! PROOFS. What every SEND and every step list keeps: the fields of the shared micro-steps, the progress of a SEND at
each of its positions (40_bus_transport.md R120), and the facts about the step lists (42_state_machine.md R163 to R174)
that hold of each numbered step. -/

namespace Sys2Proof.Proofs

open Sys2Proof.Machine Sys2Proof.Laws Sys2Proof.Safety

/-! ### The fields of a byte shift and of a sample -/

@[simp] theorem shiftThen_cfg (b : Byte) (m : Micro) (s : State) : (shiftThen b m s).cfg = s.cfg := by
  simp [shiftThen_eq, shifted]
@[simp] theorem shiftThen_regs (b : Byte) (m : Micro) (s : State) : (shiftThen b m s).regs = s.regs := by
  simp [shiftThen_eq, shifted]
@[simp] theorem shiftThen_ram (b : Byte) (m : Micro) (s : State) : (shiftThen b m s).ram = s.ram := by
  simp [shiftThen_eq, shifted]
@[simp] theorem shiftThen_hostData (b : Byte) (m : Micro) (s : State) : (shiftThen b m s).hostData = s.hostData := by
  simp [shiftThen_eq, shifted]
@[simp] theorem shiftThen_turns (b : Byte) (m : Micro) (s : State) :
    (shiftThen b m s).env.turns = s.env.turns := by
  simp [shiftThen_eq, shifted]
@[simp] theorem shiftThen_epoch (b : Byte) (m : Micro) (s : State) :
    (shiftThen b m s).env.epoch = s.env.epoch := by
  simp [shiftThen_eq, shifted]
@[simp] theorem shiftThen_lines (b : Byte) (m : Micro) (s : State) :
    (shiftThen b m s).lines = { s.lines with sclk := .lo, mosi := .lo } := by
  simp [shiftThen_eq, shifted]
@[simp] theorem shiftThen_trace (b : Byte) (m : Micro) (s : State) :
    (shiftThen b m s).trace = s.trace ++ [.byte s.lines.mode b] := by
  simp [shiftThen_eq, shifted]

/-- A byte moves the position to the given one, or to the release of ENABLE. -/
theorem shiftThen_st (b : Byte) (m : Micro) (s : State) :
    (shiftThen b m s).st = { s.st with sub := .busFail } ∨ (shiftThen b m s).st = { s.st with sub := m } := by
  rw [shiftThen_eq]
  split <;> simp [shifted]

@[simp] theorem sampleBusy_cfg (s : State) : (sampleBusy s).cfg = s.cfg := by simp [sampleBusy]
@[simp] theorem sampleBusy_st (s : State) : (sampleBusy s).st = s.st := by simp [sampleBusy]
@[simp] theorem sampleBusy_regs (s : State) : (sampleBusy s).regs = s.regs := by simp [sampleBusy]
@[simp] theorem sampleBusy_lines (s : State) : (sampleBusy s).lines = s.lines := by simp [sampleBusy]
@[simp] theorem sampleBusy_ram (s : State) : (sampleBusy s).ram = s.ram := by simp [sampleBusy]
@[simp] theorem sampleBusy_hostData (s : State) : (sampleBusy s).hostData = s.hostData := by simp [sampleBusy]
@[simp] theorem sampleBusy_turns (s : State) : (sampleBusy s).env.turns = s.env.turns := by simp [sampleBusy]
@[simp] theorem sampleBusy_epoch (s : State) : (sampleBusy s).env.epoch = s.env.epoch := by simp [sampleBusy]
@[simp] theorem sampleBusy_trace (s : State) :
    (sampleBusy s).trace = s.trace ++ [.busySample (drawBusy s).1] := by simp [sampleBusy]

/-- What follows a sample sets `st` fields only. -/
theorem afterSample_eq_setSt (s : State) : afterSample s = { s with st := (afterSample s).st } := by
  obtain ⟨-, h⟩ | ⟨-, -, h⟩ | ⟨-, -, h⟩ := afterSample_cases s <;> rw [h] <;> rfl

/-! ### The progress of a SEND -/

/-- At every position inside its SEND a panel command answers a next state and records one event (10_state.md R24). -/
theorem send_moves {c : Byte} {src : DataSource} {s : State} (h : inSend (src.length s.cfg) s.st.sub = true) :
    ∃ t e, send c src s = .next t ∧ t.trace = s.trace ++ [e] := by
  cases hs : s.st.sub with
  | byte k =>
    cases k with
    | zero => exact ⟨_, _, by simp only [send, hs]; rfl, shiftThen_trace _ _ s⟩
    | succ k =>
      have hk : k < src.length s.cfg := by simpa [inSend, hs] using h
      exact ⟨_, _, by simp only [send, hs, hk, if_true]; rfl, shiftThen_trace _ _ s⟩
  | sample =>
    refine ⟨_, .busySample (drawBusy s).1, by simp only [send, hs, waitStep]; rfl, ?_⟩
    rw [afterSample_eq_setSt, sampleBusy_trace]
  | pulse k | encode n => simp [hs, inSend] at h
  | _ => exact ⟨_, _, by simp only [send, hs, waitStep]; rfl, rfl⟩

/-! ### The step lists -/

/-- What the rules of 42_state_machine.md say of step `n` of operation `op`, step by step: which operation has it, and
at which number. -/
def stepFits (op : OpCode) (n : Nat) : SeqStep → Bool
  | .resetPulse => op == opWake && n == 1
  | .setState p => n == 1 && (op == opDisplay && p == .displaying || op == opClear && p == .clearing)
  | .encode => op == opDisplay && n == 2
  | .send b => op != opTeardown && (decodePanel b).toOption.isSome
  | .enableHigh => op == opTeardown && n == 1
  | .release => op == opTeardown && n == 2
  | .complete p => if op = opTeardown then n == 3 && p == .released else p == .awake || p == .asleep

/-- A step that is no completion has one after it, which is inside its operation from its start. -/
def stepContinues (op : OpCode) (n : Nat) (x : SeqStep) : Bool :=
  match x, stepAt op (n + 1) with
  | .complete _, _ => true
  | _, none => false
  | _, some (.setState _) => false
  | _, some _ => true

/-- What holds of every numbered step of the step lists holds of the step at any position. -/
theorem forall_stepAt {P : OpCode → Nat → SeqStep → Bool} (h : ∀ op, ∀ y ∈ (stepList op).zipIdx 1, P op y.2 y.1 = true)
    {op : OpCode} {n : Nat} {x : SeqStep} (hx : stepAt op n = some x) : P op n x = true := by
  cases n with
  | zero => cases hx
  | succ n =>
    have hx' : (stepList op)[n]? = some x := hx
    exact h op (x, n + 1) (List.mk_mem_zipIdx_iff_le_and_getElem?_sub.mpr ⟨by omega, by simpa using hx'⟩)

theorem stepFits_of_stepAt {op : OpCode} {n : Nat} {x : SeqStep} (h : stepAt op n = some x) : stepFits op n x = true :=
  forall_stepAt (by decide) h

/-- A step that sends, sends one of the 18 opcodes (30_encoding.md R94). -/
theorem decodePanel_of_stepAt_send {op : OpCode} {n : Nat} {b : Byte} (h : stepAt op n = some (.send b)) :
    ∃ i, decodePanel b = .ok i := by
  have hfit := stepFits_of_stepAt h
  cases hd : decodePanel b with
  | ok i => exact ⟨i, rfl⟩
  | error e => simp [stepFits, hd, Except.toOption] at hfit

theorem stepAt_eq_encode_iff {op : OpCode} {n : Nat} : stepAt op n = some .encode ↔ op = opDisplay ∧ n = 2 := by
  constructor
  · intro h
    simpa [stepFits] using stepFits_of_stepAt h
  · rintro ⟨rfl, rfl⟩
    rfl

/-- The state an operation completes in (42_state_machine.md R163, R171 to R174). -/
theorem target_of_stepAt_complete {op : OpCode} {n : Nat} {p : PanelState} (h : stepAt op n = some (.complete p)) :
    (op = opTeardown ∧ n = 3 ∧ p = .released) ∨ (op ≠ opTeardown ∧ (p = .awake ∨ p = .asleep)) := by
  have hfit := stepFits_of_stepAt h
  by_cases hop : op = opTeardown <;> simp_all [stepFits]

theorem positionIn_zero (c : Config) {op : OpCode} {n : Nat} {x : SeqStep} (h : stepAt op n = some x)
    (hx : ∀ p, x ≠ .setState p) : positionIn c x .zero = true := by
  cases x with
  | setState p => exact absurd rfl (hx p)
  | send b =>
    obtain ⟨i, hi⟩ := decodePanel_of_stepAt_send h
    simp [positionIn, hi, inSend]
  | _ => simp [positionIn, encodeIndex]

/-- The step after one that is no completion, entered at its start (10_state.md R23). -/
theorem stepAt_succ (c : Config) {op : OpCode} {n : Nat} {x : SeqStep} (h : stepAt op n = some x)
    (hx : ∀ p, x ≠ .complete p) : ∃ y, stepAt op (n + 1) = some y ∧ positionIn c y .zero = true := by
  have hnext : stepContinues op n x = true := forall_stepAt (by decide) h
  unfold stepContinues at hnext
  split at hnext
  · next p => exact absurd rfl (hx p)
  · cases hnext
  · cases hnext
  · next y hset _ hy => exact ⟨y, hy, positionIn_zero c hy hset⟩

theorem positionIn_send (c : Config) {b : Byte} {i : Instr} (h : decodePanel b = .ok i) (m : Micro) :
    positionIn c (.send b) m = inSend (dataLength c i) m := by
  simp [positionIn, h]

end Sys2Proof.Proofs

/-! PROOFS. Every step keeps the state legal. Legality falls into two parts that the steps touch separately: what is
said of the sequencer, the lines and the poll counter, and what is said of the stored data and the trace. -/

namespace Sys2Proof.Proofs

open Sys2Proof.Machine Sys2Proof.Laws Sys2Proof.Safety

/-! ### The two parts of legality -/

/-- The clauses of `Legal` on the `st` fields and the lines. -/
structure FsmLegal (c : Config) (r : HostRegs) (f : Fsm) (l : Lines) : Prop where
  idle : f.busy = false → f.step = 0 ∧ f.sub = .zero ∧ f.state ≠ .displaying ∧ f.state ≠ .clearing
  running : f.busy = true → f.err = .none ∧ runsIn f.op f.state = true
  position : f.busy = true → ∃ x, stepAt f.op f.step = some x ∧ positionIn c x f.sub = true
  absentErr : f.state = .absent → f.err = .hardwareAbsent
  released : linesReleased f = true → l = allReleased
  driven : linesReleased f = false → linesLegal f.sub l = true
  polls : f.busy = true → pollsLegal r f.sub f.polls = true

/-- The clauses of `Legal` on the stored data and the trace. -/
structure StoreLegal (c : Config) (r : HostRegs) (m : Ram) (tr : List Event) : Prop where
  imgCtl : r.imgCtl.toNat ≤ 1
  img : m.img.wf = true ∧ m.img.below c.npix = true
  pk : m.pk.wf = true ∧ m.pk.below c.npk = true
  pla : m.pla.wf = true ∧ m.pla.below c.npl = true
  plb : m.plb.wf = true ∧ m.plb.below c.npl = true
  opcodes : ∀ e ∈ tr, opcodeEvent e = true

theorem legal_iff {s : State} :
    Legal s ↔ FsmLegal s.cfg s.regs s.st s.lines ∧ StoreLegal s.cfg s.regs s.ram s.trace :=
  ⟨fun h => ⟨⟨h.idle, h.running, h.position, h.absentErr, h.released, h.driven, h.polls⟩,
      ⟨h.imgCtl, h.img, h.pk, h.pla, h.plb, h.opcodes⟩⟩,
    fun ⟨f, d⟩ => ⟨f.idle, f.running, f.position, f.absentErr, f.released, f.driven, f.polls,
      d.imgCtl, d.img, d.pk, d.pla, d.plb, d.opcodes⟩⟩

theorem legal_takeTurn {s : State} (h : Legal s) : Legal (takeTurn s).2 := by
  rw [legal_iff] at h ⊢
  simpa using h

theorem StoreLegal.emit {c : Config} {r : HostRegs} {m : Ram} {tr : List Event} (h : StoreLegal c r m tr) {e : Event}
    (he : opcodeEvent e = true) : StoreLegal c r m (tr ++ [e]) :=
  { h with opcodes := by simpa [or_imp, forall_and] using ⟨h.opcodes, he⟩ }

/-! ### Idle and busy states -/

theorem runsIn_ne {op : OpCode} {p : PanelState} (h : runsIn op p = true) : p ≠ .released ∧ p ≠ .absent := by
  cases p <;> simp_all [runsIn]

/-- While an operation runs, the lines have been released in a TEARDOWN past its step 2 only. -/
theorem teardown_of_linesReleased {f : Fsm} (h : runsIn f.op f.state = true) (hl : linesReleased f = true) :
    f.op = opTeardown ∧ f.step = 3 := by
  obtain ⟨hr, ha⟩ := runsIn_ne h
  simp only [linesReleased, hr, ha, Bool.or_eq_true, Bool.and_eq_true, beq_iff_eq, false_or] at hl
  obtain ⟨⟨-, hop⟩, hstep⟩ := hl
  exact ⟨hop, hstep⟩

theorem linesReleased_of_idle {f : Fsm} (h : f.busy = false) :
    linesReleased f = (f.state == .released || f.state == .absent) := by
  simp [linesReleased, h]

theorem not_linesReleased_of_stepAt {f : Fsm} {x : SeqStep} (h : runsIn f.op f.state = true)
    (hx : stepAt f.op f.step = some x) (hc : ∀ p, x ≠ .complete p) : linesReleased f = false := by
  by_contra hl
  obtain ⟨hop, hstep⟩ := teardown_of_linesReleased h (by simpa using hl)
  rw [hop, hstep] at hx
  exact hc .released (Option.some.inj hx).symm

/-- A busy state with its lines driven is legal once its position, its lines and its poll counter are. -/
theorem FsmLegal.of_driven {c : Config} {r : HostRegs} {f : Fsm} {l : Lines} {x : SeqStep} (hb : f.busy = true)
    (hrun : f.err = .none ∧ runsIn f.op f.state = true) (hx : stepAt f.op f.step = some x)
    (hpos : positionIn c x f.sub = true) (hn : linesReleased f = false) (hl : linesLegal f.sub l = true)
    (hp : pollsLegal r f.sub f.polls = true) : FsmLegal c r f l where
  idle hi := by simp [hb] at hi
  running _ := hrun
  position _ := ⟨x, hx, hpos⟩
  absentErr ha := absurd ha (runsIn_ne hrun.2).2
  released hr := by simp [hn] at hr
  driven _ := hl
  polls _ := hp

section
variable {c : Config} {r : HostRegs} {f : Fsm} {l l' : Lines} {x : SeqStep}

/-- A move inside the current step. -/
theorem FsmLegal.move (h : FsmLegal c r f l) (hb : f.busy = true) (hx : stepAt f.op f.step = some x)
    (hc : ∀ p, x ≠ .complete p) {m : Micro} {polls : Word} (hm : positionIn c x m = true)
    (hl : linesLegal m l' = true) (hp : pollsLegal r m polls = true) :
    FsmLegal c r { f with sub := m, polls := polls } l' :=
  .of_driven hb (h.running hb) hx hm (not_linesReleased_of_stepAt (h.running hb).2 hx hc) hl hp

/-- A move to the next step, with the lines driven. -/
theorem FsmLegal.next (h : FsmLegal c r f l) (hb : f.busy = true) (hx : stepAt f.op f.step = some x)
    (hc : ∀ p, x ≠ .complete p) (hr : x ≠ .release) (hl : linesLegal .zero l' = true) :
    FsmLegal c r { f with step := f.step + 1, sub := .zero } l' := by
  obtain ⟨y, hy, hpos⟩ := stepAt_succ c hx hc
  obtain ⟨herr, hrun⟩ := h.running hb
  refine .of_driven hb ⟨herr, hrun⟩ hy hpos ?_ hl rfl
  by_contra hn
  obtain ⟨hop, hstep⟩ := teardown_of_linesReleased (f := { f with step := f.step + 1, sub := .zero }) hrun
    (by simpa using hn)
  obtain ⟨hop, hstep⟩ : f.op = opTeardown ∧ f.step = 2 := ⟨hop, Nat.succ.inj hstep⟩
  rw [hop, hstep] at hx
  exact hr (Option.some.inj hx).symm

end

/-! ### The lines at a position -/

theorem linesLegal_iff {m : Micro} {l : Lines} :
    linesLegal m l = true ↔ l.enable = enableLevel m ∧ l.reset = resetLevel m ∧ modeLegal m l.mode = true ∧
      indicatorLegal m l.indicator = true ∧ l.sclk = .lo ∧ l.mosi = .lo := by
  simp [linesLegal, and_assoc]

/-- After the command byte, and after a data byte, the frame goes on with MODE up. -/
theorem linesLegal_afterData (sent total : Nat) {l : Lines} (h : linesLegal .enableHi l = true) :
    linesLegal (afterData sent total) l = true := by
  unfold afterData
  split
  · exact h
  · exact h

theorem toggled_ne_z {v : Level} (h : v ≠ .z) : toggled v ≠ .z := by
  cases v <;> simp_all [toggled]

/-! ### The poll counter -/

/-- A counted sample that does not spend the budget leaves the counter below it (41_handshake.md R142). -/
theorem pollsLegal_countPoll {r : HostRegs} {polls : Word} (h : pollsLegal r .sample polls = true)
    (hs : budgetSpent r (countPoll polls) = false) : pollsLegal r .toggle (countPoll polls) = true := by
  simp only [pollsLegal, budgetSpent, Bool.or_eq_true, beq_iff_eq, decide_eq_true_eq, Bool.and_eq_false_iff,
    bne_eq_false_iff_eq, beq_eq_false_iff_ne] at h hs ⊢
  unfold countPoll at hs ⊢
  split_ifs at hs ⊢ <;> bv_omega

/-- A wait starts its poll loop within any budget. -/
theorem pollsLegal_zero (r : HostRegs) : pollsLegal r .sample 0 = true := by
  simp only [pollsLegal, Bool.or_eq_true, beq_iff_eq, decide_eq_true_eq]
  bv_omega

/-! ### A SEND's micro-steps -/

section
variable {s t : State} {b : Byte} {i : Instr}

theorem linesLegal_of_send (hf : FsmLegal s.cfg s.regs s.st s.lines) (hb : s.st.busy = true)
    (hx : stepAt s.st.op s.st.step = some (.send b)) : linesLegal s.st.sub s.lines = true :=
  hf.driven (not_linesReleased_of_stepAt (hf.running hb).2 hx nofun)

/-- What follows a sample stays in the wait, and counts within the budget. -/
theorem afterSample_sampleBusy_legal (hl : Legal s) (hb : s.st.busy = true)
    (hx : stepAt s.st.op s.st.step = some (.send b)) (hd : decodePanel b = .ok i) (hs : s.st.sub = .sample) :
    Legal (afterSample (sampleBusy s)) := by
  obtain ⟨hf, hstore⟩ := legal_iff.mp hl
  have hlines := linesLegal_of_send hf hb hx
  have hpolls := hf.polls hb
  rw [hs] at hlines hpolls
  have hin {m : Micro} (hm : inSend (dataLength s.cfg i) m = true) : positionIn s.cfg (.send b) m = true := by
    rwa [positionIn_send _ hd]
  have hstore' : StoreLegal s.cfg s.regs s.ram (sampleBusy s).trace := by
    rw [sampleBusy_trace]
    exact hstore.emit rfl
  obtain ⟨-, hu⟩ | ⟨-, hspent, hu⟩ | ⟨-, hspent, hu⟩ := afterSample_cases (sampleBusy s) <;>
    rw [hu, legal_iff, moveTo_cfg, moveTo_regs, moveTo_st, moveTo_lines, moveTo_ram, moveTo_trace] <;>
    simp only [sampleBusy_cfg, sampleBusy_regs, sampleBusy_st, sampleBusy_lines, sampleBusy_ram]
  · exact ⟨hf.move hb hx nofun (hin rfl) hlines rfl, hstore'⟩
  · rw [sampleBusy_regs, sampleBusy_st] at hspent
    exact ⟨hf.move hb hx nofun (hin rfl) hlines hspent, hstore'⟩
  · rw [sampleBusy_regs, sampleBusy_st] at hspent
    exact ⟨hf.move hb hx nofun (hin rfl) hlines (pollsLegal_countPoll hpolls hspent), hstore'⟩

theorem waitStep_legal (hl : Legal s) (hb : s.st.busy = true) (hx : stepAt s.st.op s.st.step = some (.send b))
    (hd : decodePanel b = .ok i) (h : waitStep s = some t) : Legal t := by
  obtain ⟨hf, hstore⟩ := legal_iff.mp hl
  have hlines := linesLegal_of_send hf hb hx
  have hpolls := hf.polls hb
  have hin {m : Micro} (hm : inSend (dataLength s.cfg i) m = true) : positionIn s.cfg (.send b) m = true := by
    rwa [positionIn_send _ hd]
  obtain ⟨hs, rfl⟩ | ⟨hs, rfl⟩ | ⟨hs, rfl⟩ | ⟨hs, rfl⟩ | ⟨hs, rfl⟩ | ⟨hs, rfl⟩ | ⟨hs, rfl⟩ | ⟨hs, rfl⟩ :=
      waitStep_cases h <;> rw [hs, linesLegal_iff] at hlines <;> rw [hs] at hpolls <;>
      obtain ⟨hen, hres, hmode, hind, hsclk, hmosi⟩ := hlines
  case inr.inr.inl => exact afterSample_sampleBusy_legal hl hb hx hd hs
  all_goals refine legal_iff.mpr ⟨?_, hstore.emit rfl⟩
  · exact hf.move hb hx nofun (hin rfl) (linesLegal_iff.mpr ⟨hen, hres, hmode, rfl, hsclk, hmosi⟩) rfl
  · refine hf.move hb hx nofun (hin rfl) (linesLegal_iff.mpr ⟨hen, hres, hmode, ?_, hsclk, hmosi⟩) ?_
    · simp_all [indicatorLegal]
    · exact pollsLegal_zero s.regs
  · refine hf.move hb hx nofun (hin rfl) (linesLegal_iff.mpr ⟨hen, hres, hmode, ?_, hsclk, hmosi⟩) hpolls
    simpa [indicatorLegal] using toggled_ne_z (by simpa [indicatorLegal] using hind)
  · exact hf.move hb hx nofun (hin rfl) (linesLegal_iff.mpr ⟨hen, hres, hmode, hind, hsclk, hmosi⟩) hpolls
  · refine hf.move hb hx nofun (hin rfl) (linesLegal_iff.mpr ⟨hen, hres, ?_, rfl, hsclk, hmosi⟩) rfl
    simp_all [modeLegal]
  · exact hf.move hb hx nofun (hin rfl) (linesLegal_iff.mpr ⟨hen, hres, hmode, rfl, hsclk, hmosi⟩) rfl
  · refine hf.next hb hx nofun nofun (linesLegal_iff.mpr ⟨hen, hres, ?_, hind, hsclk, hmosi⟩)
    simp_all [modeLegal]

/-- A byte of the frame, whichever way its draw falls: only the 18 opcodes go out with MODE `Lo`. -/
theorem shiftThen_legal {v : Byte} {m : Micro} (hl : Legal s) (hb : s.st.busy = true)
    (hx : stepAt s.st.op s.st.step = some (.send b)) (hd : decodePanel b = .ok i)
    (hm : inSend (dataLength s.cfg i) m = true) (hpolls : ∀ p, pollsLegal s.regs m p = true)
    (hfail : linesLegal .busFail s.lines = true) (hnext : linesLegal m s.lines = true)
    (hv : opcodeEvent (.byte s.lines.mode v) = true) : Legal (shiftThen v m s) := by
  obtain ⟨hf, hstore⟩ := legal_iff.mp hl
  have hserial {k : Micro} (hk : linesLegal k s.lines = true) :
      linesLegal k { s.lines with sclk := .lo, mosi := .lo } = true := by
    obtain ⟨hen, hres, hmode, hind, -, -⟩ := linesLegal_iff.mp hk
    exact linesLegal_iff.mpr ⟨hen, hres, hmode, hind, rfl, rfl⟩
  rw [legal_iff, shiftThen_cfg, shiftThen_regs, shiftThen_lines, shiftThen_ram, shiftThen_trace]
  refine ⟨?_, hstore.emit hv⟩
  obtain hst | hst := shiftThen_st v m s <;> rw [hst]
  · exact hf.move hb hx nofun (by rw [positionIn_send _ hd]; rfl) (hserial hfail) rfl
  · exact hf.move hb hx nofun (by rw [positionIn_send _ hd, hm]) (hserial hnext) (hpolls _)

theorem inSend_afterData (len sent : Nat) : inSend len (afterData sent len) = true := by
  unfold afterData
  split
  · next hlt => simpa [inSend] using hlt
  · rfl

theorem pollsLegal_afterData (r : HostRegs) (sent len : Nat) (p : Word) :
    pollsLegal r (afterData sent len) p = true := by
  unfold afterData; split <;> rfl

theorem abort_legal {e : Err} (hl : Legal s) (hb : s.st.busy = true)
    (hx : stepAt s.st.op s.st.step = some (.send b)) (hs : s.st.sub = .abort e) : Legal (abort e s) := by
  obtain ⟨hf, hstore⟩ := legal_iff.mp hl
  have hlines := linesLegal_of_send hf hb hx
  rw [hs] at hlines
  refine legal_iff.mpr ⟨?_, hstore.emit rfl⟩
  exact {
    idle := by simp
    running := by simp
    position := by simp
    absentErr := by simp
    released := by simp [linesReleased]
    driven := fun _ => hlines
    polls := by simp }

theorem send_legal {src : DataSource} (hl : Legal s) (hb : s.st.busy = true)
    (hx : stepAt s.st.op s.st.step = some (.send b)) (hd : decodePanel b = .ok i)
    (hlen : src.length s.cfg = dataLength s.cfg i) (h : send b src s = .next t) : Legal t := by
  obtain ⟨hf, hstore⟩ := legal_iff.mp hl
  have hlines := linesLegal_of_send hf hb hx
  have hin {m : Micro} (hm : inSend (dataLength s.cfg i) m = true) : positionIn s.cfg (.send b) m = true := by
    rwa [positionIn_send _ hd]
  obtain ⟨hs, rfl⟩ | ⟨hs, rfl⟩ | ⟨hs, rfl⟩ | ⟨hs, rfl⟩ | ⟨k, hs, hk, rfl⟩ | ⟨hs, rfl⟩ | ⟨hs, rfl⟩ | ⟨e, hs, rfl⟩ |
    hw := send_cases h
  case inr.inr.inr.inr.inr.inr.inr.inl => exact abort_legal hl hb hx hs
  case inr.inr.inr.inr.inr.inr.inr.inr => exact waitStep_legal hl hb hx hd hw
  all_goals
    rw [hs] at hlines
    obtain ⟨hen, hres, hmode, hind, hsclk, hmosi⟩ := linesLegal_iff.mp hlines
  · refine legal_iff.mpr ⟨hf.move hb hx nofun (hin rfl) (linesLegal_iff.mpr ?_) rfl, hstore.emit rfl⟩
    exact ⟨hen, hres, rfl, hind, hsclk, hmosi⟩
  · refine legal_iff.mpr ⟨hf.move hb hx nofun (hin (by simp [inSend])) (linesLegal_iff.mpr ?_) rfl, hstore.emit rfl⟩
    exact ⟨rfl, hres, hmode, hind, hsclk, hmosi⟩
  · refine shiftThen_legal hl hb hx hd rfl (fun _ => rfl) (linesLegal_iff.mpr ?_) hlines ?_
    · exact ⟨hen, hres, by simp_all [modeLegal], hind, hsclk, hmosi⟩
    · simp_all [modeLegal, opcodeEvent, Except.toOption]
  · rw [hlen]
    refine legal_iff.mpr ⟨hf.move hb hx nofun (hin (inSend_afterData _ _)) (linesLegal_afterData _ _
      (linesLegal_iff.mpr ?_)) (pollsLegal_afterData _ _ _ _), hstore.emit rfl⟩
    exact ⟨hen, hres, rfl, hind, hsclk, hmosi⟩
  · rw [hlen] at hk ⊢
    refine shiftThen_legal hl hb hx hd (inSend_afterData _ _) (pollsLegal_afterData _ _ _) (linesLegal_iff.mpr ?_)
      (linesLegal_afterData _ _ hlines) ?_
    · exact ⟨hen, hres, by simp_all [modeLegal], hind, hsclk, hmosi⟩
    · simp_all [modeLegal, opcodeEvent]
  · refine legal_iff.mpr ⟨hf.move hb hx nofun (hin rfl) (linesLegal_iff.mpr ?_) rfl, hstore.emit rfl⟩
    exact ⟨rfl, hres, hmode, hind, hsclk, hmosi⟩
  · refine legal_iff.mpr ⟨hf.move hb hx nofun (hin rfl) (linesLegal_iff.mpr ?_) rfl, hstore.emit rfl⟩
    exact ⟨rfl, hres, hmode, hind, hsclk, hmosi⟩

end

/-! ### The sequencer's own micro-steps -/

section
variable {s t : State}

/-- The start of the reset pulse is its position 0, for the lines too. -/
theorem linesLegal_of_pulseIndex {m : Micro} {k : Nat} (h : pulseIndex m = some k) (l : Lines) :
    linesLegal m l = linesLegal (.pulse k) l := by
  cases m <;> simp only [pulseIndex, Option.some.injEq, reduceCtorEq] at h
  all_goals subst h; rfl

theorem pulseStep_legal (hl : Legal s) (hb : s.st.busy = true) (hx : stepAt s.st.op s.st.step = some .resetPulse)
    (h : pulseStep s = .next t) : Legal t := by
  obtain ⟨hf, hstore⟩ := legal_iff.mp hl
  have hlines := hf.driven (not_linesReleased_of_stepAt (hf.running hb).2 hx nofun)
  obtain ⟨hk, rfl⟩ | ⟨hk, rfl⟩ | ⟨hk, rfl⟩ | ⟨hk, rfl⟩ | ⟨hk, rfl⟩ | ⟨hk, rfl⟩ | ⟨hk, rfl⟩ := pulseStep_cases h <;>
    rw [linesLegal_of_pulseIndex hk, linesLegal_iff] at hlines <;>
    obtain ⟨hen, hres, hmode, hind, hsclk, hmosi⟩ := hlines <;>
    refine legal_iff.mpr ⟨?_, hstore.emit rfl⟩
  case inr.inr.inr.inr.inr.inr =>
    exact hf.next hb hx nofun nofun (linesLegal_iff.mpr ⟨hen, rfl, hmode, hind, hsclk, hmosi⟩)
  case inr.inl | inr.inr.inr.inl | inr.inr.inr.inr.inr.inl =>
    exact hf.move hb hx nofun rfl (linesLegal_iff.mpr ⟨hen, hres, hmode, hind, hsclk, hmosi⟩) rfl
  all_goals exact hf.move hb hx nofun rfl (linesLegal_iff.mpr ⟨hen, rfl, hmode, hind, hsclk, hmosi⟩) rfl

/-- The encoder writes inside PK, PLA and PLB (43_framebuffer_encoder.md R206). -/
theorem encodeByte_storeLegal {n : Nat} (h : StoreLegal s.cfg s.regs s.ram s.trace)
    (hn : n < s.cfg.npk + s.cfg.npl) : StoreLegal s.cfg s.regs (encodeByte n s).ram s.trace := by
  obtain ⟨himgCtl, himg, ⟨hpkwf, hpk⟩, ⟨hplawf, hpla⟩, ⟨hplbwf, hplb⟩, hopcodes⟩ := h
  unfold encodeByte
  split
  · next hpkn => exact ⟨himgCtl, himg, ⟨wf_write _ _ _ hpkwf, below_write _ _ _ _ hpkn hpk⟩, ⟨hplawf, hpla⟩,
      ⟨hplbwf, hplb⟩, hopcodes⟩
  · have ho : n - s.cfg.npk < s.cfg.npl := by omega
    exact ⟨himgCtl, himg, ⟨hpkwf, hpk⟩, ⟨wf_write _ _ _ hplawf, below_write _ _ _ _ ho hpla⟩,
      ⟨wf_write _ _ _ hplbwf, below_write _ _ _ _ ho hplb⟩, hopcodes⟩

theorem linesLegal_of_encodeIndex {m : Micro} {n : Nat} (h : encodeIndex m = some n) (l : Lines) :
    linesLegal m l = linesLegal .zero l := by
  cases m with
  | zero => rfl
  | encode k => rfl
  | _ => cases h

theorem encodeStep_legal (hl : Legal s) (hb : s.st.busy = true) (hx : stepAt s.st.op s.st.step = some .encode)
    (h : encodeStep s = .next t) : Legal t := by
  obtain ⟨hf, hstore⟩ := legal_iff.mp hl
  have hlines := hf.driven (not_linesReleased_of_stepAt (hf.running hb).2 hx nofun)
  obtain ⟨n, hn, ⟨hlt, rfl⟩ | ⟨-, rfl⟩⟩ := encodeStep_cases h <;> rw [linesLegal_of_encodeIndex hn] at hlines <;>
    rw [legal_iff]
  · simp only [moveTo_cfg, moveTo_regs, moveTo_st, moveTo_lines, moveTo_ram, moveTo_trace, encodeByte_cfg,
      encodeByte_regs, encodeByte_st, encodeByte_lines, encodeByte_trace]
    exact ⟨hf.move hb hx nofun (by simpa [positionIn, encodeIndex] using hlt) hlines rfl,
      encodeByte_storeLegal hstore hlt⟩
  · exact ⟨hf.next hb hx nofun nofun hlines, hstore⟩

theorem enableHigh_legal (hl : Legal s) (hb : s.st.busy = true) (hx : stepAt s.st.op s.st.step = some .enableHigh)
    (hs : s.st.sub = .zero) : Legal (nextStep (drive .enable .hi s)) := by
  obtain ⟨hf, hstore⟩ := legal_iff.mp hl
  have hlines := hf.driven (not_linesReleased_of_stepAt (hf.running hb).2 hx nofun)
  rw [hs, linesLegal_iff] at hlines
  obtain ⟨-, hothers⟩ := hlines
  exact legal_iff.mpr ⟨hf.next hb hx nofun nofun (linesLegal_iff.mpr ⟨rfl, hothers⟩), hstore.emit rfl⟩

theorem release_legal (hl : Legal s) (hb : s.st.busy = true) (hx : stepAt s.st.op s.st.step = some .release) :
    Legal (nextStep (releaseLines s)) := by
  obtain ⟨hf, hstore⟩ := legal_iff.mp hl
  obtain ⟨herr, hrun⟩ := hf.running hb
  have hfit := stepFits_of_stepAt hx
  simp only [stepFits, Bool.and_eq_true, beq_iff_eq] at hfit
  obtain ⟨hop, hstep⟩ := hfit
  obtain ⟨y, hy, hpos⟩ := stepAt_succ s.cfg hx nofun
  refine legal_iff.mpr ⟨?_, hstore.emit rfl⟩
  exact {
    idle := by simp [hb]
    running := fun _ => ⟨herr, hrun⟩
    position := fun _ => ⟨y, hy, hpos⟩
    absentErr := fun ha => absurd ha (runsIn_ne hrun).2
    released := fun _ => rfl
    driven := by simp [linesReleased, hb, hop, hstep]
    polls := fun _ => rfl }

theorem complete_legal {p : PanelState} (hl : Legal s) (hb : s.st.busy = true)
    (hx : stepAt s.st.op s.st.step = some (.complete p)) (hs : s.st.sub = .zero) : Legal (complete p s) := by
  obtain ⟨hf, hstore⟩ := legal_iff.mp hl
  obtain ⟨-, hrun⟩ := hf.running hb
  have hlines : if p = .released then s.lines = allReleased else linesLegal .zero s.lines = true := by
    obtain ⟨hop, hstep, rfl⟩ | ⟨hop, hp⟩ := target_of_stepAt_complete hx
    · exact hf.released (by simp [linesReleased, hb, hop, hstep])
    · rw [if_neg (by rintro rfl; simp at hp), ← hs]
      refine hf.driven ?_
      by_contra hn
      obtain ⟨hteardown, -⟩ := teardown_of_linesReleased hrun (by simpa using hn)
      exact hop hteardown
  have hp : p = .awake ∨ p = .asleep ∨ p = .released := by
    obtain ⟨-, -, hp⟩ | ⟨-, hp | hp⟩ := target_of_stepAt_complete hx <;> simp [hp]
  refine legal_iff.mpr ⟨?_, hstore.emit rfl⟩
  exact {
    idle := by obtain rfl | rfl | rfl := hp <;> simp
    running := by simp
    position := by simp
    absentErr := by obtain rfl | rfl | rfl := hp <;> simp
    released := fun h => by obtain rfl | rfl | rfl := hp <;> simp_all [linesReleased]
    driven := fun h => by obtain rfl | rfl | rfl := hp <;> simp_all [linesReleased]
    polls := by simp }

theorem sequencerStep_legal (hl : Legal s) (h : sequencerStep s = .next t) : Legal t := by
  obtain ⟨-, rfl⟩ | ⟨hb, x, hx, hcase⟩ := sequencerStep_cases h
  · exact hl
  obtain ⟨rfl, hp⟩ | ⟨p, rfl, -, -⟩ | ⟨rfl, he⟩ | ⟨rfl, hs, rfl⟩ | ⟨rfl, -, rfl⟩ | ⟨p, rfl, hs, rfl⟩ := hcase
  · exact pulseStep_legal hl hb hx hp
  · exact absurd hx (stepAt_ne_setState_of_legal hl hb p)
  · exact encodeStep_legal hl hb hx he
  · exact enableHigh_legal hl hb hx hs
  · exact release_legal hl hb hx
  · exact complete_legal hl hb hx hs

end

/-! ### The host's moves and block reset -/

section
variable {s : State}

/-- An idle block is in no wait, so its host registers are free to change. -/
theorem FsmLegal.idle_regs {c : Config} {r r' : HostRegs} {f : Fsm} {l : Lines} (h : FsmLegal c r f l)
    (hb : f.busy = false) : FsmLegal c r' f l :=
  { h with polls := by simp [hb] }

theorem regWrite_legal (hl : Legal s) (off : Nat) (v : Word) : Legal (regWrite off v s) := by
  obtain ⟨hf, hstore⟩ := legal_iff.mp hl
  unfold regWrite
  split
  · exact hl
  · next hb =>
    have hb : s.st.busy = false := by simpa using hb
    have hbit : ((v.extractLsb' 0 1).setWidth 32).toNat ≤ 1 := by
      have := (v.extractLsb' 0 1).isLt
      rw [BitVec.toNat_setWidth]
      omega
    split_ifs <;> rw [legal_iff]
    · exact ⟨hf.idle_regs hb, { hstore with }⟩
    · exact ⟨hf.idle_regs hb, { hstore with imgCtl := hbit }⟩
    · exact ⟨hf.idle_regs hb, { hstore with }⟩
    · exact ⟨hf, hstore⟩

theorem imgWrite_legal (hl : Legal s) (i : Nat) (b : Byte) : Legal (imgWrite i b s) := by
  unfold imgWrite
  split
  · next h =>
    obtain ⟨-, hi⟩ := h
    obtain ⟨hf, hstore⟩ := legal_iff.mp hl
    obtain ⟨hwf, hbelow⟩ := hstore.img
    exact legal_iff.mpr ⟨hf, { hstore with img := ⟨wf_write _ _ _ hwf, below_write _ _ _ _ hi hbelow⟩ }⟩
  · exact hl

theorem hostAccess_legal (hl : Legal s) (a : HostAccess) : Legal (hostAccess a s) := by
  cases a with
  | wr off v => exact regWrite_legal hl off v
  | imgWr i b => exact imgWrite_legal hl i b
  | rd off => exact legal_iff.mpr ((legal_iff (s := s)).mp hl)
  | imgRd i => exact legal_iff.mpr ((legal_iff (s := s)).mp hl)
  | waitIdle => exact legal_iff.mpr ((legal_iff (s := s)).mp hl)

/-- A rejection keeps the position, the lines and STATE; in Absent its error is HardwareAbsent (60_exceptions.md
R265). -/
theorem reject_legal (hl : Legal s) (hb : s.st.busy = false) (op : OpCode) : Legal (reject op (check s op) s) := by
  obtain ⟨hf, hstore⟩ := legal_iff.mp hl
  refine legal_iff.mpr ⟨?_, hstore.emit rfl⟩
  have hr : linesReleased { s.st with op := op, err := check s op } = linesReleased s.st := by
    simp [linesReleased, hb]
  exact {
    idle := hf.idle
    running := by simp [hb]
    position := by simp [hb]
    absentErr := fun ha => check_of_absent ha op
    released := fun h => hf.released (hr ▸ h)
    driven := fun h => hf.driven (hr ▸ h)
    polls := by simp [hb] }

theorem ne_of_accepts {p : PanelState} {op : OpCode} (h : accepts p op = true) : p ≠ .released ∧ p ≠ .absent := by
  cases p <;> simp_all [accepts]

/-- STATE stays the source state in the operations that set none (42_state_machine.md R169). -/
theorem runsIn_of_accepts {p : PanelState} {op : OpCode} (h : accepts p op = true) (hd : op ≠ opDisplay)
    (hc : op ≠ opClear) : runsIn op p = true := by
  cases p <;> simp_all [accepts, runsIn]

theorem op_of_not_reserved {op : OpCode} (h : reservedOp op = false) :
    op = opWake ∨ op = opDisplay ∨ op = opClear ∨ op = opSleep ∨ op = opTeardown := by
  decide +revert

/-- An operation that has just started. -/
theorem FsmLegal.accepted {c : Config} {r : HostRegs} {f : Fsm} {l : Lines} {op : OpCode} {p : PanelState} {n : Nat}
    {x : SeqStep} (hrun : runsIn op p = true) (hx : stepAt op n = some x) (hc : ∀ q, x ≠ .complete q)
    (hs : ∀ q, x ≠ .setState q) (hl : linesLegal .zero l = true) :
    FsmLegal c r { f with op := op, busy := true, err := .none, state := p, step := n, sub := .zero } l :=
  .of_driven rfl ⟨rfl, hrun⟩ hx (positionIn_zero c hx hs)
    (not_linesReleased_of_stepAt
      (f := { f with op := op, busy := true, err := .none, state := p, step := n, sub := .zero }) hrun hx hc) hl rfl

theorem accept_legal (hl : Legal s) (hb : s.st.busy = false) {op : OpCode} (hc : check s op = .none) :
    Legal (accept op s) := by
  obtain ⟨hf, hstore⟩ := legal_iff.mp hl
  obtain ⟨hacc, hres, -⟩ := check_none hc
  obtain ⟨hr, ha⟩ := ne_of_accepts hacc
  obtain ⟨-, hsub, -, -⟩ := hf.idle hb
  have hlines := hf.driven (by simp [linesReleased_of_idle hb, hr, ha])
  rw [hsub] at hlines
  have hrun := runsIn_of_accepts hacc
  rw [legal_iff]
  obtain rfl | rfl | rfl | rfl | rfl := op_of_not_reserved hres
  · exact ⟨.accepted (hrun nofun nofun) (x := .resetPulse) rfl nofun nofun hlines, hstore⟩
  · exact ⟨.accepted rfl (x := .encode) rfl nofun nofun hlines, hstore⟩
  · exact ⟨.accepted rfl (x := .send 0x10) rfl nofun nofun hlines, hstore⟩
  · exact ⟨.accepted (hrun nofun nofun) (x := .send 0x02) rfl nofun nofun hlines, hstore⟩
  · exact ⟨.accepted (hrun nofun nofun) (x := .enableHigh) rfl nofun nofun hlines, hstore⟩

theorem hostCommand_legal (hl : Legal s) (op : OpCode) : Legal (hostCommand op s) := by
  obtain ⟨-, h⟩ | ⟨hb, hc, h⟩ | ⟨hb, -, h⟩ := hostCommand_cases op s <;> rw [h]
  · exact hl
  · exact accept_legal hl hb hc
  · exact reject_legal hl hb op

theorem constructFsm_legal (c : Config) (p : Bool) :
    FsmLegal c { imgDesc := 0, imgCtl := 0, timeout := 0 } (constructFsm p) (constructLines p) := by
  cases p <;> exact {
    idle := fun _ => ⟨rfl, rfl, nofun, nofun⟩
    running := nofun
    position := nofun
    absentErr := by simp [constructFsm]
    released := by simp [linesReleased, constructFsm, constructLines]
    driven := by decide
    polls := nofun }

theorem storeLegal_empty (c : Config) {tr : List Event} (h : ∀ e ∈ tr, opcodeEvent e = true) :
    StoreLegal c { imgDesc := 0, imgCtl := 0, timeout := 0 } { img := [], pk := [], pla := [], plb := [] } tr :=
  ⟨Nat.zero_le 1, ⟨rfl, rfl⟩, ⟨rfl, rfl⟩, ⟨rfl, rfl⟩, ⟨rfl, rfl⟩, h⟩

theorem blockReset_legal (hl : Legal s) (p : Bool) : Legal (blockReset p s) := by
  obtain ⟨-, hstore⟩ := legal_iff.mp hl
  exact legal_iff.mpr ⟨constructFsm_legal s.cfg p, storeLegal_empty s.cfg (hstore.emit rfl).opcodes⟩

end

/-! ### A step -/

theorem exec_panel_legal {s t : State} {b : Byte} {i : Instr} (hl : Legal s) (hb : s.st.busy = true)
    (hx : stepAt s.st.op s.st.step = some (.send b)) (hd : decodePanel b = .ok i) (h : exec i s = .next t) :
    Legal t := by
  obtain ⟨src, hsend, hlen⟩ := exec_decodePanel hd s
  exact send_legal hl hb hx hd hlen (hsend ▸ h)

/-- Settles O48: each agent's move keeps both parts of legality. -/
theorem stepKeepsLegal : Obligations.StepKeepsLegal := by
  intro s t hl h
  have hl' := legal_takeTurn hl
  obtain ⟨p, -, rfl⟩ | ⟨a, i, -, hf, he⟩ | ⟨a, -, -, rfl⟩ | ⟨-, i, hf, he⟩ | ⟨-, -, hq⟩ := step_cases h
  · exact blockReset_legal hl' p
  · obtain ⟨v, -, rfl⟩ := fetchHost_some hf
    rw [exec_decodeHost, Host.Outcome.next.injEq] at he
    exact he ▸ hostCommand_legal hl' _
  · exact hostAccess_legal hl' a
  · obtain ⟨hb, c, hx, hd⟩ := fetchPanel_some hf
    exact exec_panel_legal hl' hb hx hd he
  · exact sequencerStep_legal hl' hq

/-- Settles O47: the reset state is what CONSTRUCT leaves. -/
theorem resetIsLegal : Obligations.ResetIsLegal :=
  legal_iff.mpr ⟨constructFsm_legal Config.hw true, storeLegal_empty Config.hw (by simp [State.reset, opcodeEvent])⟩

end Sys2Proof.Proofs

/-! PROOFS. The decoder and the encoder (30_encoding.md R90 to R98) undo each other: a CMD word is its two fields, a
panel opcode is its byte, and a transaction carries its length in its opcode. -/

namespace Sys2Proof.Proofs

/-! ### CMD words -/

@[simp] theorem opField_append (g : BitVec 29) (op : BitVec 3) : opField (g ++ op) = op :=
  BitVec.extractLsb'_append_eq_right

@[simp] theorem ignoredField_append (g : BitVec 29) (op : BitVec 3) : ignoredField (g ++ op) = g :=
  BitVec.extractLsb'_append_eq_left

theorem ignoredField_append_opField (w : Word) : ignoredField w ++ opField w = w :=
  BitVec.extractLsb'_append_extractLsb' (w := 29) (len := 3) (x := w)

theorem decode_encode (i : Instr) : decode (encode i) = .ok i := by
  cases i with
  | wake g | display g | clear g | sleep g | teardown g | reservedOp0 g | reservedOp6 g | reservedOp7 g =>
    simp [encode, decode, decodeHost]
  | _ => rfl

theorem encode_decodeHost (w : Word) : encode (decodeHost w) = .host w := by
  have hop : ∀ op : OpCode, op = 0 ∨ op = 1 ∨ op = 2 ∨ op = 3 ∨ op = 4 ∨ op = 5 ∨ op = 6 ∨ op = 7 := by decide
  rw [← ignoredField_append_opField w]
  generalize ignoredField w = g
  obtain h | h | h | h | h | h | h | h := hop (opField w) <;> rw [h] <;> simp [decodeHost, encode]

/-! ### Opcode bytes -/

theorem encode_of_decodePanel {b : Byte} {i : Instr} (h : decodePanel b = .ok i) : encode i = .panel b := by
  have hb : b = BitVec.ofNat 8 b.toNat := by simp
  unfold decodePanel at h
  split at h
  case h_19 => cases h
  all_goals
    next hn =>
      rw [hb, hn]
      cases h
      rfl

theorem decodePanel_of_encode {b : Byte} {i : Instr} (h : encode i = .panel b) : decodePanel b = .ok i := by
  have hdecode := decode_encode i
  rwa [h] at hdecode

/-- A byte is an opcode, or is rejected by name (30_encoding.md R97). -/
theorem decodePanel_cases (b : Byte) : (∃ i, decodePanel b = .ok i) ∨ decodePanel b = .error (.unknownOpcode b) := by
  unfold decodePanel
  split <;> simp

/-! ### Transactions -/

/-- A transaction ends where R95 says, whatever follows on the bus (30_encoding.md R98). -/
theorem decodeTransaction_append {c : Config} {i : Instr} {b : Byte} {data : List Byte} (hd : decodePanel b = .ok i)
    (hlen : data.length = dataLength c i) (rest : List Byte) :
    decodeTransaction c (transactionBytes b data ++ rest) = .ok (i, data, rest) := by
  simp [transactionBytes, decodeTransaction, hd, ← hlen]

/-- Settles O1: the fields of a word are read back, each opcode is its own byte, and the opcode gives the length. -/
theorem decodeAndEncodeAgree : Obligations.DecodeAndEncodeAgree := by
  refine ⟨decode_encode, encode_decodeHost, fun b i h => encode_of_decodePanel h, fun c i b data rest h hwf => ?_⟩
  simp only [transactionWellFormed, Bool.and_eq_true, beq_iff_eq] at hwf
  obtain ⟨-, hlen⟩ := hwf
  exact decodeTransaction_append (decodePanel_of_encode h) hlen rest

/-- Settles O2: a byte that decodes is the one its instruction encodes to, and those are the 18. -/
theorem panelOpcodesAreTheEighteen : Obligations.PanelOpcodesAreTheEighteen := by
  intro b
  refine ⟨fun h => ?_, fun h => (decodePanel_cases b).resolve_left ?_⟩
  · fin_cases h <;> exact ⟨_, rfl⟩
  · rintro ⟨i, hi⟩
    have hcode := encode_of_decodePanel hi
    cases i <;> cases hcode <;> exact h (by decide)

/-- Settles O3: the written-out words are closed terms. -/
theorem tableWordsDecode : Obligations.TableWordsDecode := by
  unfold Obligations.TableWordsDecode
  decide

end Sys2Proof.Proofs

/-! PROOFS. A write to CMD that is accepted, or made while busy (42_state_machine.md R160, R161), and what every such
write leaves alone. -/

namespace Sys2Proof.Proofs

open Sys2Proof.Machine Sys2Proof.Laws Sys2Proof.Safety

/-! ### Acceptance -/

theorem exec_of_accepted {g : BitVec 29} {s : State} {i : Instr} {op : OpCode} (h : (i, op) ∈ Expect.hostCodes g)
    (hb : s.st.busy = false) (hc : check s op = .none) : exec i s = .next (accept op s) := by
  rw [exec_of_mem_hostCodes h, hostCommand_of_check_eq_none hb hc]

theorem check_of_accepts {s : State} {op : OpCode} (ha : accepts s.st.state op = true) (hr : reservedOp op = false)
    (hd : op = opDisplay → imageFits s = true) : check s op = .none := by
  have hne := (ne_of_accepts ha).2
  by_cases hop : op = opDisplay <;> simp_all [check]

theorem accepts_teardown {p : PanelState} (h : p = .uninitialized ∨ p = .awake ∨ p = .asleep ∨ p = .faulted) :
    accepts p opTeardown = true := by
  obtain rfl | rfl | rfl | rfl := h <;> rfl

theorem check_teardown {s : State}
    (h : s.st.state = .uninitialized ∨ s.st.state = .awake ∨ s.st.state = .asleep ∨ s.st.state = .faulted) :
    check s opTeardown = .none :=
  check_of_accepts (accepts_teardown h) rfl nofun

theorem check_clear {s : State} (h : s.st.state = .awake) : check s opClear = .none :=
  check_of_accepts (by rw [h]; rfl) rfl nofun

theorem check_sleep {s : State} (h : s.st.state = .awake) : check s opSleep = .none :=
  check_of_accepts (by rw [h]; rfl) rfl nofun

theorem check_display {s : State} (h : s.st.state = .awake) (hv : s.regs.imgCtl.getLsbD 0 = true)
    (hw : (s.regs.imgDesc.extractLsb' 0 16).toNat = s.cfg.w) (hh : (s.regs.imgDesc.extractLsb' 16 16).toNat = s.cfg.h) :
    check s opDisplay = .none :=
  check_of_accepts (by rw [h]; rfl) rfl fun _ => by simp [imageFits, imgValid, imgW, imgH, hv, hw, hh]

/-- Settles O4: WAKE passes the checks in its three states. -/
theorem wakeIsAccepted : Obligations.WakeIsAccepted := fun g _ hb h =>
  exec_of_accepted (g := g) (by simp [Expect.hostCodes]) hb (check_wake h)

/-- Settles O5: DISPLAY passes the checks in Awake with an image that fits. -/
theorem displayIsAccepted : Obligations.DisplayIsAccepted := fun g _ hb h hv hw hh =>
  exec_of_accepted (g := g) (by simp [Expect.hostCodes]) hb (check_display h hv hw hh)

/-- Settles O6: CLEAR passes the checks in Awake. -/
theorem clearIsAccepted : Obligations.ClearIsAccepted := fun g _ hb h =>
  exec_of_accepted (g := g) (by simp [Expect.hostCodes]) hb (check_clear h)

/-- Settles O7: SLEEP passes the checks in Awake. -/
theorem sleepIsAccepted : Obligations.SleepIsAccepted := fun g _ hb h =>
  exec_of_accepted (g := g) (by simp [Expect.hostCodes]) hb (check_sleep h)

/-- Settles O8: TEARDOWN passes the checks in its four states. -/
theorem teardownIsAccepted : Obligations.TeardownIsAccepted := fun g _ hb h =>
  exec_of_accepted (g := g) (by simp [Expect.hostCodes]) hb (check_teardown h)

/-! ### The frame of a CMD write -/

theorem hostCommand_of_busy {s : State} (hb : s.st.busy = true) (op : OpCode) : hostCommand op s = s := by
  simp [hostCommand, hb]

/-- Settles O13: all eight codes are CMD writes. -/
theorem commandWhileBusyIsIgnored : Obligations.CommandWhileBusyIsIgnored := by
  intro g s i op h hb
  rw [exec_of_mem_hostCodes h, hostCommand_of_busy hb]

/-- A CMD write changes the `st` fields and the trace, and no other part of the state. -/
theorem hostCommand_eq (op : OpCode) (s : State) :
    hostCommand op s = { s with st := (hostCommand op s).st, trace := (hostCommand op s).trace } := by
  obtain ⟨-, h⟩ | ⟨-, -, h⟩ | ⟨-, -, h⟩ := hostCommand_cases op s <;> rw [h]
  · rw [accept_eq_setSt]
  · rfl

theorem hostCommand_polls (op : OpCode) (s : State) : (hostCommand op s).st.polls = s.st.polls := by
  obtain ⟨-, h⟩ | ⟨-, -, h⟩ | ⟨-, -, h⟩ := hostCommand_cases op s <;> rw [h]
  · exact accept_polls op s
  · rfl

theorem hostCommand_trace (op : OpCode) (s : State) :
    (hostCommand op s).trace = s.trace ∨ ∃ e, (hostCommand op s).trace = s.trace ++ [.opDone op e] := by
  obtain ⟨-, h⟩ | ⟨-, -, h⟩ | ⟨-, -, h⟩ := hostCommand_cases op s <;> rw [h]
  · exact .inl rfl
  · exact .inl (by rw [accept_eq_setSt])
  · exact .inr ⟨check s op, rfl⟩

theorem hostCommand_state (op : OpCode) (s : State) :
    (hostCommand op s).st.state = s.st.state ∨ (op = opDisplay ∧ (hostCommand op s).st.state = .displaying) ∨
      (op = opClear ∧ (hostCommand op s).st.state = .clearing) := by
  obtain ⟨-, h⟩ | ⟨-, -, h⟩ | ⟨-, -, h⟩ := hostCommand_cases op s <;> rw [h]
  · exact .inl rfl
  · rw [accept_state]
    split_ifs with hd hc
    · exact .inr (.inl ⟨hd, rfl⟩)
    · exact .inr (.inr ⟨hc, rfl⟩)
    · exact .inl rfl
  · exact .inl rfl

/-- Settles O15: a CMD write touches the `st` fields and the trace only. -/
theorem hostCommandFrame : Obligations.HostCommandFrame := by
  intro g s t i op h ht
  rw [exec_of_mem_hostCodes h, Host.Outcome.next.injEq] at ht
  subst ht
  refine ⟨?_, ?_, ?_, ?_, ?_, ?_, hostCommand_polls op s, fun a => ?_, hostCommand_trace op s, hostCommand_state op s⟩
  all_goals rw [hostCommand_eq]
  exact ⟨rfl, rfl, rfl, rfl⟩

/-! ### Where operations start -/

/-- Everything a step of an idle block can do: a block reset, a CMD write, another host access, or nothing. -/
theorem step_of_idle_cases {s t : State} (h : step s = .next t) (hb : s.st.busy = false) :
    (∃ p, (takeTurn s).1 = .reset p ∧ t = blockReset p (takeTurn s).2) ∨
    (∃ v, (takeTurn s).1 = .host (.wr 0x00 v) ∧ t = hostCommand (v.extractLsb' 0 3) (takeTurn s).2) ∨
    (∃ a, t = hostAccess a (takeTurn s).2) ∨
    t = (takeTurn s).2 := by
  obtain hr | ⟨a, i, ha, hf, he⟩ | ⟨a, -, -, rfl⟩ | ⟨-, i, hf, -⟩ | ⟨-, -, hq⟩ := step_cases h
  · exact .inl hr
  · obtain ⟨v, rfl, rfl⟩ := fetchHost_some hf
    rw [exec_decodeHost, Host.Outcome.next.injEq] at he
    exact .inr (.inl ⟨v, ha, he.symm⟩)
  · exact .inr (.inr (.inl ⟨a, rfl⟩))
  · obtain ⟨hbusy, -⟩ := fetchPanel_some hf
    rw [takeTurn_st, hb] at hbusy
    cases hbusy
  · obtain ⟨-, rfl⟩ | ⟨hbusy, -⟩ := sequencerStep_cases hq
    · exact .inr (.inr (.inr rfl))
    · rw [takeTurn_st, hb] at hbusy
      cases hbusy

theorem busy_hostCommand_of_idle {s : State} {op : OpCode} (hb : s.st.busy = false)
    (h : (hostCommand op s).st.busy = true) : check s op = .none ∧ hostCommand op s = accept op s := by
  obtain ⟨hb', -⟩ | ⟨-, hc, ha⟩ | ⟨-, -, hr⟩ := hostCommand_cases op s
  · rw [hb] at hb'
    cases hb'
  · exact ⟨hc, ha⟩
  · rw [hr, reject_st, hb] at h
    cases h

/-- The table of R161, read by state. -/
theorem accepts_cases {p : PanelState} {op : OpCode} (h : accepts p op = true) :
    (p = .uninitialized ∨ p = .asleep ∨ p = .faulted → op = 1 ∨ op = 5) ∧
    (op = 2 ∨ op = 3 ∨ op = 4 → p = .awake) := by
  refine ⟨?_, fun hop => ?_⟩
  · rintro (rfl | rfl | rfl) <;> simpa [accepts] using h
  · by_contra hp
    rw [accepts_eq_false_of_ne_awake (by simpa using hop) hp] at h
    cases h

/-- Settles O53: only a CMD write makes BUSY rise, by an acceptance, which the table of R161 allows. -/
theorem operationsStartWhereAccepted : Obligations.OperationsStartWhereAccepted := by
  intro s t h hs ht
  have hidle : (takeTurn s).2.st.busy = false := by rw [takeTurn_st, hs]
  obtain ⟨p, -, rfl⟩ | ⟨v, hv, rfl⟩ | ⟨a, rfl⟩ | rfl := step_of_idle_cases h hs
  · simp [constructFsm_eq] at ht
  · obtain ⟨hc, haccept⟩ := busy_hostCommand_of_idle hidle ht
    obtain ⟨hacc, hres, -⟩ := check_none hc
    rw [takeTurn_st] at hacc
    obtain ⟨hr, ha⟩ := ne_of_accepts hacc
    obtain ⟨hwt, hawake⟩ := accepts_cases hacc
    obtain ⟨rest, hturns⟩ := turns_of_takeTurn_eq_host hv
    rw [haccept, accept_op]
    exact ⟨⟨v, rest, hturns, rfl⟩, hwt, hawake, hr, ha, op_of_not_reserved hres⟩
  · rw [hostAccess_st, hidle] at ht
    cases ht
  · rw [hidle] at ht
    cases ht

/-! ### The states no operation leaves -/

@[simp] theorem regWrite_lines (off : Nat) (v : Word) (s : State) : (regWrite off v s).lines = s.lines := by
  unfold regWrite; split_ifs <;> rfl

@[simp] theorem imgWrite_lines (i : Nat) (b : Byte) (s : State) : (imgWrite i b s).lines = s.lines := by
  unfold imgWrite; split_ifs <;> rfl

/-- A host access other than a CMD write moves no line. -/
theorem hostAccess_lines (a : HostAccess) (s : State) : (hostAccess a s).lines = s.lines := by
  cases a <;> simp [hostAccess]

/-- A CMD write where nothing is accepted leaves STATE. -/
theorem hostCommand_state_of_not_accepts {s : State} {op : OpCode} (h : accepts s.st.state op = false) :
    (hostCommand op s).st.state = s.st.state := by
  obtain ⟨-, hc⟩ | ⟨-, hc, -⟩ | ⟨-, -, hc⟩ := hostCommand_cases op s
  · rw [hc]
  · obtain ⟨hacc, -⟩ := check_none hc
    rw [h] at hacc
    cases hacc
  · rw [hc]
    rfl

/-- Settles O52: a terminal state is idle and accepts nothing, so only a block reset changes its STATE or its lines. -/
theorem terminalStates : Obligations.TerminalStates := by
  intro s t hl hs h hr
  have hacc : ∀ op, accepts s.st.state op = false := by
    obtain hs | hs := hs <;> simp [hs, accepts]
  have hidle : s.st.busy = false := by
    by_contra hb
    obtain ⟨-, hrun⟩ := hl.running (by simpa using hb)
    obtain ⟨h1, h2⟩ := runsIn_ne hrun
    exact hs.elim h1 h2
  have hlines : s.lines = allReleased := hl.released (by obtain hs | hs := hs <;> simp [linesReleased, hs])
  have hkeep : t.st.state = s.st.state ∧ t.lines = s.lines := by
    obtain ⟨p, hp, -⟩ | ⟨v, -, rfl⟩ | ⟨a, rfl⟩ | rfl := step_of_idle_cases h hidle
    · exact absurd hp (hr p)
    · rw [hostCommand_state_of_not_accepts (by rw [takeTurn_st]; exact hacc _), hostCommand_eq]
      simp
    · simp [hostAccess_st, hostAccess_lines]
    · simp
  exact hkeep.imp_right fun hl => hl.trans hlines

end Sys2Proof.Proofs

/-! PROOFS. The host's accesses other than a CMD write (42_state_machine.md R180), the fields of STATUS (10_state.md
R32), the reset values, and which instruction a step runs (10_state.md R23, R31). -/

namespace Sys2Proof.Proofs

open Sys2Proof.Machine Sys2Proof.Laws Sys2Proof.Safety

/-! ### Host accesses -/

theorem step_of_hostAccess {s : State} {a : HostAccess} {rest : List Turn} (h : s.env.turns = .host a :: rest)
    (ha : fetchHost a = none) : step s = .next (hostAccess a { s with env := { s.env with turns := rest } }) := by
  simp [step, takeTurn, h, ha]

theorem setWidth_bit_zero (v : Word) : (v.extractLsb' 0 1).setWidth 32 = if v.getLsbD 0 then 1 else 0 := by
  have hbit : v.extractLsb' 0 1 = BitVec.ofBool (v.getLsbD 0) := by
    ext k hk
    obtain rfl : k = 0 := by omega
    simp
  rw [hbit]
  cases v.getLsbD 0 <;> rfl

theorem step_of_regWrite {s : State} {off : Nat} {v : Word} {rest : List Turn}
    (h : s.env.turns = .host (.wr off v) :: rest) (hoff : off ≠ 0x00) :
    step s = .next (regWrite off v { s with env := { s.env with turns := rest } }) :=
  step_of_hostAccess h (by simp [fetchHost, hoff])

/-- Settles O39: at an offset other than CMD's the step is the register write, which the busy lock does not stop. -/
theorem registerWrites : Obligations.RegisterWrites := by
  intro s off v rest hb h
  refine ⟨?_, ?_, ?_, fun h0 h8 hc h10 => ?_⟩
  · rintro rfl
    rw [step_of_regWrite h (by decide)]
    simp [regWrite, hb]
  · rintro rfl
    rw [step_of_regWrite h (by decide)]
    simp [regWrite, hb, setWidth_bit_zero]
  · rintro rfl
    rw [step_of_regWrite h (by decide)]
    simp [regWrite, hb]
  · rw [step_of_regWrite h h0]
    simp [regWrite, h8, hc, h10]

/-- Settles O40: a read and a poll set the host's word; a poll also lists what comes next. -/
theorem registerReads : Obligations.RegisterReads := by
  refine ⟨fun s rest h => step_of_hostAccess h rfl, fun s off rest h => ⟨regRead off s, ?_, ?_⟩⟩
  · exact step_of_hostAccess h rfl
  · refine ⟨?_, ?_, ?_, ?_, fun h4 h8 hc h10 => by simp [regRead, h4, h8, hc, h10]⟩
    all_goals rintro rfl; rfl

theorem imgByte_imgWrite {s : State} {i : Nat} (b : Byte) (hb : s.st.busy = false) (hi : i < s.cfg.npix) (j : Nat) :
    imgByte (imgWrite i b s) j = if j = i then b else imgByte s j := by
  simp only [imgByte, imgWrite, hb, hi, and_self, if_true, readByte_write]

theorem imgWrite_eq_setImg (i : Nat) (b : Byte) (s : State) :
    imgWrite i b s = { s with ram := { s.ram with img := (imgWrite i b s).ram.img } } := by
  unfold imgWrite; split <;> rfl

/-- Settles O42: the step is the IMG write, which stores one byte below NPIX and nothing from there up. -/
theorem imageWrites : Obligations.ImageWrites := by
  intro s i b rest hb h
  refine ⟨_, step_of_hostAccess h rfl, ?_, fun hi => ⟨?_, fun j hj => ?_⟩, fun hi => ?_⟩
  · rw [hostAccess, imgWrite_eq_setImg]
  · exact (imgByte_imgWrite b (by exact hb) (by exact hi) i).trans (if_pos rfl)
  · exact (imgByte_imgWrite b (by exact hb) (by exact hi) j).trans (if_neg hj)
  · simp [hostAccess, imgWrite, Nat.not_lt.mpr hi]

/-- Settles O43: the step is the IMG read, at any time. -/
theorem imageReads : Obligations.ImageReads := by
  intro s i rest h
  rw [step_of_hostAccess h rfl, hostAccess, imgRead, apply_ite (BitVec.setWidth 32)]
  rfl

/-- Settles O44: the busy lock drops every write, CMD's included; a read has none. -/
theorem writesWhileBusyAreIgnored : Obligations.WritesWhileBusyAreIgnored := by
  intro s rest hb
  refine ⟨fun off v h => ?_, fun i b h => ?_, fun i hi h => ?_⟩
  · by_cases h0 : off = 0x00
    · subst h0
      exact (step_of_cmdWrite h).trans (congrArg _ (hostCommand_of_busy (by exact hb) _))
    · exact (step_of_regWrite h h0).trans (congrArg _ (regWrite_of_busy off v (by exact hb)))
  · exact (step_of_hostAccess h rfl).trans (congrArg _ (imgWrite_of_busy i b (by exact hb)))
  · rw [imageReads s i rest h, if_pos hi]

/-! ### STATUS and the reset values -/

/-- STATUS, bit by bit: STATE in three bits, BUSY, ERR in three, a zero, OP in three. -/
theorem getLsbD_statusWord (f : Fsm) {k : Nat} (hk : k < 32) :
    (statusWord f).getLsbD k =
      if k < 3 then f.state.code.getLsbD k
      else if k - 3 < 1 then f.busy
      else if k - 3 - 1 < 3 then f.err.code.getLsbD (k - 3 - 1)
      else if k - 3 - 1 - 3 < 1 then false
      else f.op.getLsbD (k - 3 - 1 - 3 - 1) := by
  rw [statusWord, BitVec.getLsbD_setWidth]
  simp only [BitVec.getLsbD_append, hk, decide_true, Bool.true_and]
  split_ifs <;> simp_all

theorem statusWord_state (f : Fsm) : (statusWord f).extractLsb' 0 3 = f.state.code := by
  refine BitVec.eq_of_getLsbD_eq fun k hk => ?_
  rw [BitVec.getLsbD_extractLsb', getLsbD_statusWord f (by omega), if_pos (by omega)]
  simp [hk]

theorem statusWord_busy (f : Fsm) : (statusWord f).getLsbD 3 = f.busy := by
  rw [getLsbD_statusWord f (by omega)]
  rfl

theorem statusWord_err (f : Fsm) : (statusWord f).extractLsb' 4 3 = f.err.code := by
  refine BitVec.eq_of_getLsbD_eq fun k hk => ?_
  rw [BitVec.getLsbD_extractLsb', getLsbD_statusWord f (by omega), if_neg (by omega), if_neg (by omega),
    if_pos (by omega)]
  simp [hk, show 4 + k - 3 - 1 = k by omega]

theorem statusWord_op (f : Fsm) : (statusWord f).extractLsb' 8 3 = f.op := by
  refine BitVec.eq_of_getLsbD_eq fun k hk => ?_
  rw [BitVec.getLsbD_extractLsb', getLsbD_statusWord f (by omega), if_neg (by omega), if_neg (by omega),
    if_neg (by omega), if_neg (by omega)]
  simp [hk, show 8 + k - 3 - 1 - 3 - 1 = k by omega]

theorem statusWord_high (f : Fsm) : (statusWord f).extractLsb' 11 21 = 0#21 := by
  refine BitVec.eq_of_getLsbD_eq fun k hk => ?_
  rw [BitVec.getLsbD_extractLsb', getLsbD_statusWord f (by omega), if_neg (by omega), if_neg (by omega),
    if_neg (by omega), if_neg (by omega), BitVec.getLsbD_of_ge _ _ (by omega)]
  simp

/-- Settles O41: the codes are those of the tables, each at its place in STATUS. -/
theorem statusFields : Obligations.StatusFields := by
  intro f
  refine ⟨?_, statusWord_busy f, ?_, ?_, statusWord_op f, statusWord_high f⟩
  · rw [statusWord_state]
    cases f.state <;> rfl
  · rw [statusWord_err]
    cases f.err <;> rfl
  · rw [getLsbD_statusWord f (by omega)]
    rfl

/-- Settles O46: the reset state is a closed term, but for the OPEN parameters, of which these fields hold none. -/
theorem resetValues : Obligations.ResetValues := ⟨by decide, rfl, rfl, rfl, rfl, rfl, rfl, rfl⟩

/-! ### Which instruction a step runs -/

/-- Settles O56: a CMD write is fetched decoded, and so is the opcode byte of a step that sends. -/
theorem stepRunsTheDecodedInstruction : Obligations.StepRunsTheDecodedInstruction := by
  refine ⟨fun s v rest h => ?_, fun s c i hq hb hx hd => step_of_quiet_send ⟨hb, hq, hx⟩ hd,
    fun s c i rest h hb hx hd => ?_⟩
  · rw [step_of_cmdWrite h, exec_decodeHost]
  · have hf : fetchPanel { s with env := { s.env with turns := rest } } = some i := by
      simp [fetchPanel, hb, hx, hd, Except.toOption]
    simp [step, takeTurn, h, hf]

/-- Every opcode is sent at the position where `withFetchWord` places it (log 14). -/
theorem positionOf_of_decodePanel {b : Byte} {i : Instr} (h : decodePanel b = .ok i) :
    ∃ op n, positionOf b = some (op, n) ∧ stepAt op n = some (.send b) := by
  have hcode := encode_of_decodePanel h
  cases i <;> cases hcode <;> exact ⟨_, _, rfl, rfl⟩

/-- Settles O57: a placed instruction is the next turn's. -/
theorem placedInstructionRunsNext : Obligations.PlacedInstructionRunsNext := by
  obtain ⟨hhost, -, hpanel⟩ := stepRunsTheDecodedInstruction
  refine ⟨fun s w => ?_, fun s b i hd => ?_⟩
  · exact hhost (s.withFetchWord 32 w) _ s.env.turns rfl
  · obtain ⟨op, n, hpos, hx⟩ := positionOf_of_decodePanel hd
    refine ⟨op, n, hx, ?_⟩
    have hplaced : s.withFetchWord 8 b.toNat = { s with
        st := { s.st with busy := true, op := op, step := n, sub := .zero }
        env := { s.env with turns := .block :: s.env.turns } } := by
      simp [State.withFetchWord, hpos]
    rw [hplaced]
    exact hpanel _ b i s.env.turns rfl rfl hx hd

/-- Settles O58: the numbered steps are read off the lists; a step that sends is none of TEARDOWN's. -/
theorem stepListsSendTheOpcodes : Obligations.StepListsSendTheOpcodes := by
  refine ⟨by decide, rfl, rfl, rfl, rfl, rfl, rfl, rfl, rfl, rfl, rfl, rfl, rfl, rfl, rfl, rfl, fun n c h => ?_,
    fun n => ?_⟩
  · have hfit := stepFits_of_stepAt h
    simp [stepFits] at hfit
  · cases n <;> exact ⟨rfl, rfl, rfl⟩

end Sys2Proof.Proofs

/-! PROOFS. The micro-steps of a SEND one by one (40_bus_transport.md R120 to R124, 41_handshake.md R140 to R142), for
all 18 panel commands: what each leaves, and that each records one event. -/

namespace Sys2Proof.Proofs

open Sys2Proof.Machine Sys2Proof.Laws Sys2Proof.Safety

/-! ### The bits of a byte -/

@[simp] theorem ofBool_beq_hi (b : Bool) : (Logic.ofBool b == .hi) = b := by
  cases b <;> rfl

/-- Settles O26: the waveform is eight periods, each with MOSI at its bit, and then the idle levels. -/
theorem byteIsSentMsbFirst : Obligations.ByteIsSentMsbFirst := by
  intro b r
  rw [shiftOut_wire]
  refine ⟨?_, rfl, rfl, ?_⟩
  · simp [periodLevels, sampledBits]
  · simp [periodLevels]

/-! ### The frame -/

/-- A byte with a listed draw: recorded either way, and the draw decides where the frame goes. -/
theorem shiftThen_listed {s : State} {e : Bool} {rest : List Bool} (h : s.env.busErrIn = e :: rest) (b : Byte)
    (next : Micro) :
    shiftThen b next s =
      moveTo (if e then .busFail else next) { shifted b s with env := { s.env with busErrIn := rest } } := by
  rw [shiftThen_eq, drawBusErr_listed (shifted b s) e rest h]
  rfl

theorem afterData_zero (d : List Byte) : afterData 0 d.length = if d = [] then .enableHi else .byte 1 := by
  cases d <;> simp [afterData]

section
variable {s : State} {i : Instr} {c : Byte} {d : List Byte}

theorem exec_of_sub_busFail (h : (i, c, d) ∈ Expect.sends s) (hs : s.st.sub = .busFail) :
    exec i s = .next (raise .busFailure (drive .enable .hi s)) := by
  obtain ⟨src, hsend, -⟩ := exec_of_mem_sends h
  simp [hsend, send, hs]

theorem exec_of_sub_abort {e : Err} (h : (i, c, d) ∈ Expect.sends s) (hs : s.st.sub = .abort e) :
    exec i s = .next (abort e s) := by
  obtain ⟨src, hsend, -⟩ := exec_of_mem_sends h
  simp [hsend, send, hs]

end

/-- Settles O16: each position of the frame has its one micro-step. -/
theorem panelFrameMicroSteps : Obligations.PanelFrameMicroSteps := by
  intro s i c d h
  refine ⟨exec_of_sub_zero h, exec_of_sub_enableLo h, fun e rest hs he => ?_, fun hs => ?_,
    fun k b e rest hs hb he => ?_, exec_of_sub_enableHi h, exec_of_sub_busFail h⟩
  · rw [exec_of_sub_command h hs, shiftThen_listed he]
    rfl
  · rw [exec_of_sub_modeHi h hs, afterData_zero]
    rfl
  · obtain ⟨hk, rfl⟩ := List.getElem?_eq_some_iff.mp hb
    rw [exec_of_sub_data h hs hk, shiftThen_listed he]
    rfl

/-! ### The wait -/

theorem countPoll_eq_counted (polls : Word) : countPoll polls = Expect.counted (polls.toNat + 1) := by
  have hc := toNat_counted (polls.toNat + 1)
  unfold countPoll
  split <;> bv_omega

theorem budgetSpent_iff {r : HostRegs} {polls : Word} :
    budgetSpent r polls = true ↔ r.timeout ≠ 0 ∧ polls = r.timeout := by
  simp [budgetSpent, budget]

/-- What follows a sample, in one equation (41_handshake.md R140). -/
theorem afterSample_eq (s : State) :
    afterSample s = { s with st := { s.st with
      sub := if s.ser.busySync = s.cfg.busyReadyLevel then .readyHi
        else if s.regs.timeout ≠ 0 ∧ Expect.counted (s.st.polls.toNat + 1) = s.regs.timeout then .timedOut
        else .toggle
      polls := if s.ser.busySync = s.cfg.busyReadyLevel then s.st.polls
        else Expect.counted (s.st.polls.toNat + 1) } } := by
  simp only [← countPoll_eq_counted, ← budgetSpent_iff]
  by_cases hr : s.ser.busySync = s.cfg.busyReadyLevel
  · rw [afterSample_of_ready hr]
    simp [moveTo, hr]
  · cases hb : budgetSpent s.regs (countPoll s.st.polls) <;> simp [afterSample, readsReady, moveTo, hr, hb]

/-- Settles O17: inside the wait every panel command does the wait's micro-step. -/
theorem panelWaitMicroSteps : Obligations.PanelWaitMicroSteps := by
  intro s i c d h
  have hstep {t : State} (ht : waitStep s = some t) : exec i s = .next t :=
    exec_of_waitStep (decodePanel_of_mem_sends h) ht
  refine ⟨fun hs => hstep (by rw [waitStep, hs]; rfl), fun hs => hstep (by rw [waitStep, hs]; rfl),
    fun v rest hs hv => ?_, fun v w hvw hs hv => hstep ?_, fun hs => hstep (by rw [waitStep, hs]; rfl),
    fun hs => hstep (by rw [waitStep, hs]; rfl), fun hs => hstep (by rw [waitStep, hs]; rfl),
    fun hs => hstep (by rw [waitStep, hs]; rfl)⟩
  · rw [hstep (waitStep_sample hs), sampleBusy_listed hv, afterSample_eq]
  · have hw : toggled s.lines.indicator = w := by
      obtain ⟨rfl, rfl⟩ | ⟨rfl, rfl⟩ := hvw <;> rw [hv] <;> rfl
    rw [waitStep, hs]
    simp [hw, moveTo, drive, emit]

/-! ### Every micro-step -/

/-- Settles O24: a SEND moves at each of its positions, and a panel command is one. -/
theorem panelCommandAlwaysMoves : Obligations.PanelCommandAlwaysMoves := by
  intro s i c d h hin
  obtain ⟨src, hsend, rfl⟩ := exec_of_mem_sends h
  rw [length_bytes] at hin
  rw [hsend]
  exact send_moves hin

/-- An abort leaves a position that is inside a SEND, so the lines are driven (42_state_machine.md R167). -/
theorem linesLegal_of_abort {s : State} {e : Err} (hl : Legal s) (hb : s.st.busy = true) (hs : s.st.sub = .abort e) :
    linesLegal (.abort e) s.lines = true := by
  obtain ⟨x, hx, hpos⟩ := hl.position hb
  obtain ⟨-, hrun⟩ := hl.running hb
  have hc : ∀ p, x ≠ .complete p := by
    rintro p rfl
    simp [positionIn, hs] at hpos
  rw [← hs]
  exact hl.driven (not_linesReleased_of_stepAt hrun hx hc)

/-- Settles O18: the micro-step at a raised error is `ABORT`, and the frame or the wait has put the lines up. -/
theorem abortEndsTheOperation : Obligations.AbortEndsTheOperation := by
  intro s i c d e h hs
  refine ⟨exec_of_sub_abort h hs, fun hl hb => ?_⟩
  obtain ⟨hen, hres, -, hind, -⟩ := linesLegal_iff.mp (linesLegal_of_abort hl hb hs)
  exact ⟨hen, by simpa [indicatorLegal] using hind, hres⟩

end Sys2Proof.Proofs

/-! PROOFS. How a SEND ends (40_bus_transport.md R120, R124; 41_handshake.md R140, R142): with its whole transaction and
a ready sample, with a bus failure at one of its bytes, or with its budget spent. -/

namespace Sys2Proof.Proofs

open Sys2Proof.Machine Sys2Proof.Laws Sys2Proof.Safety

/-! ### The whole transaction -/

/-- The waveform of a byte does not depend on what was sent before. -/
theorem wire_shiftOut (b : Byte) (r r' : Serial) : (shiftOut b r).wire = (shiftOut b r').wire := by
  rw [shiftOut_wire, shiftOut_wire]

/-- The waveform log holds the last byte sent (log 21). -/
theorem wire_shiftAll (c : Byte) (d : List Byte) (r : Serial) :
    (shiftAll (c :: d) r).wire = (shiftOut (d.getLastD c) r).wire := by
  obtain rfl | ⟨d, b, rfl⟩ := d.eq_nil_or_concat
  · rfl
  · rw [List.concat_eq_append, ← List.cons_append, shiftAll_append_singleton, List.getLastD_concat]
    exact wire_shiftOut b _ r

/-- Settles O19: the frame, a wait whose first sample is ready, and the last delay. -/
theorem panelCommandSendsItsTransaction : Obligations.PanelCommandSendsItsTransaction := by
  intro s i c d errs busy h hs he hb
  have hrun := execTimes_toLastDelay h hs (m := 0) (busy := busy) (by
    by_cases h0 : s.regs.timeout = 0
    · exact .inl h0
    · exact .inr (by bv_omega)) he hb
  refine ⟨{ shiftAll (c :: d) s.ser with busySync := s.cfg.busyReadyLevel }, rfl, wire_shiftAll c d s.ser, ?_⟩
  rw [show 10 + d.length = 4 + d.length + 1 + (2 + 3 * 0 + 2) + 1 by omega, execTimes_add hrun,
    execTimes_succ (exec_lastDelay (decodePanel_of_mem_sends h)), execTimes, sent, List.append_assoc]
  rfl

/-! ### The end of a wait -/

/-- Settles O20: the poll loop, a ready sample and the last delay. -/
theorem waitEndsWhenReady : Obligations.WaitEndsWhenReady := by
  intro s i c d m busy h hs ha hb
  have hd := decodePanel_of_mem_sends h
  rw [show 5 + 3 * m = 2 + 3 * m + 2 + 1 by omega, execTimes_add (execTimes_readyState hd hs ha hb),
    execTimes_succ (exec_of_waitStep hd rfl), execTimes]
  simp [readyState, nextStep, delay, emit, Expect.wait]

/-- The sample that spends the budget ends the poll loop (41_handshake.md R142). -/
theorem afterSample_of_spent {s : State} (hr : s.ser.busySync = Expect.notReady s.cfg)
    (hb : budgetSpent s.regs (countPoll s.st.polls) = true) :
    afterSample s = moveTo .timedOut { s with st := { s.st with polls := countPoll s.st.polls } } := by
  simp [afterSample, readsReady, hr, notReady_ne_busyReadyLevel, hb]

theorem counted_toNat (w : Word) : Expect.counted w.toNat = w := by
  have hw := w.isLt
  apply BitVec.eq_of_toNat_eq
  rw [toNat_counted]
  omega

/-- Where a wait that started in `s` stands before its abort, after the `n` not-ready samples that its budget
allows. -/
def spentState (s : State) (n : Nat) (busy : List Logic) : State :=
  { s with
    st := { s.st with sub := .abort .deviceUnresponsive, polls := s.regs.timeout }
    lines := { s.lines with indicator := .hi }
    ser := { s.ser with busySync := Expect.notReady s.cfg }
    env := { s.env with busyIn := busy }
    trace := s.trace ++ Expect.failedWait s.cfg n }

/-- A wait whose budget is `n + 1` raises DeviceUnresponsive at its sample number `n + 1`. -/
theorem execTimes_spentState {s : State} {i : Instr} {c : Byte} {n : Nat} {busy : List Logic}
    (hd : decodePanel c = .ok i) (hs : s.st.sub = .indLo) (hn : s.regs.timeout.toNat = n + 1)
    (hb : s.env.busyIn = List.replicate (n + 1) (Expect.notReady s.cfg) ++ busy) :
    execTimes i (2 + 3 * n + 2) s = .next (spentState s (n + 1) busy) := by
  have hcount : countPoll (Expect.counted n) = s.regs.timeout := by rw [countPoll_counted, ← hn, counted_toNat]
  have hspent : budgetSpent s.regs (countPoll (Expect.counted n)) = true :=
    budgetSpent_iff.mpr ⟨by bv_omega, hcount⟩
  have hsample : waitStep (pollState s n (Expect.notReady s.cfg :: busy)) = some (moveTo .timedOut
      { pollState s n busy with
        st := { s.st with polls := s.regs.timeout }
        ser := { s.ser with busySync := Expect.notReady s.cfg }
        trace := (pollState s n busy).trace ++ [.busySample (Expect.notReady s.cfg)] }) := by
    rw [waitStep_sample rfl, sampleBusy_listed rfl, afterSample_of_spent rfl hspent]
    simp [pollState, hcount, moveTo]
  rw [List.replicate_succ', List.append_assoc, List.singleton_append] at hb
  rw [execTimes_add (execTimes_pollLoop hd hs (.inr (by omega)) hb), execTimes_succ (exec_of_waitStep hd hsample),
    execTimes_succ (exec_of_waitStep hd rfl), execTimes]
  simp [spentState, pollState, moveTo, raise, drive, emit, Expect.failedWait]

/-- Settles O21: the wait raises the error at the last sample of its budget, and the abort follows. -/
theorem waitFailsAtItsBudget : Obligations.WaitFailsAtItsBudget := by
  intro s i c d busy h hs ht hb
  obtain ⟨n, hn⟩ : ∃ n, s.regs.timeout.toNat = n + 1 := Nat.exists_eq_succ_of_ne_zero (by bv_omega)
  rw [hn] at hb ⊢
  rw [show 2 + 3 * (n + 1) = 2 + 3 * n + 2 + 1 by omega,
    execTimes_add (execTimes_spentState (decodePanel_of_mem_sends h) hs hn hb),
    execTimes_succ (exec_of_sub_abort (s := spentState s (n + 1) busy) h rfl), execTimes]
  rfl

/-! ### A bus failure -/

/-- Where a frame that started in `s` stands before its abort, its byte number `k` having failed. -/
def failedState (s : State) (c : Byte) (d : List Byte) (k : Nat) (ser : Serial) (errs : List Bool) : State :=
  { s with
    st := { s.st with sub := .abort .busFailure }
    lines := { s.lines with enable := .hi, mode := if k = 0 then .lo else .hi, sclk := .lo, mosi := .lo }
    ser := ser
    env := { s.env with busErrIn := errs }
    trace := s.trace ++ Expect.frameUpTo c d k ++ [.lineSet .enable .hi] }

section
variable {s : State} {i : Instr} {c : Byte} {d : List Byte} {errs : List Bool}

theorem exec_failed_command (h : (i, c, d) ∈ Expect.sends s) (hs : s.st.sub = .byte 0)
    (he : s.env.busErrIn = true :: errs) :
    exec i s = .next (moveTo .busFail { shifted c s with env := { s.env with busErrIn := errs } }) := by
  rw [exec_of_sub_command h hs, shiftThen_listed he]
  rfl

theorem exec_failed_data {k : Nat} (h : (i, c, d) ∈ Expect.sends s) (hs : s.st.sub = .byte (k + 1)) (hk : k < d.length)
    (he : s.env.busErrIn = true :: errs) :
    exec i s = .next (moveTo .busFail { shifted d[k] s with env := { s.env with busErrIn := errs } }) := by
  rw [exec_of_sub_data h hs hk, shiftThen_listed he]
  rfl

/-- A frame whose command byte fails. -/
theorem execTimes_failed_command (h : (i, c, d) ∈ Expect.sends s) (hs : s.st.sub = .zero)
    (he : s.env.busErrIn = true :: errs) :
    execTimes i 4 s = .next (failedState s c d 0 (shiftOut c s.ser) errs) := by
  refine execTimes_cons (exec_of_sub_zero h hs) ?_
  refine execTimes_cons (exec_of_sub_enableLo h rfl) ?_
  refine execTimes_cons (exec_failed_command h rfl he) ?_
  refine execTimes_cons (exec_of_sub_busFail h rfl) ?_
  rw [execTimes]
  simp [failedState, shifted, moveTo, raise, drive, emit, Expect.frameUpTo]

/-- A frame whose data byte number `k` fails. -/
theorem execTimes_failed_data {k : Nat} (h : (i, c, d) ∈ Expect.sends s) (hs : s.st.sub = .zero) (hk : k < d.length)
    (he : s.env.busErrIn = List.replicate (k + 1) false ++ true :: errs) :
    execTimes i (4 + k + 2) s = .next (failedState s c d (k + 1) (shiftAll (c :: d.take (k + 1)) s.ser) errs) := by
  have hser : shiftAll (c :: d.take (k + 1)) s.ser = shiftOut d[k] (shiftAll (c :: d.take k) s.ser) := by
    rw [← List.take_append_getElem hk, ← List.cons_append, shiftAll_append_singleton]
  have hsub : (frameState s c d k (true :: errs)).st.sub = .byte (k + 1) := by simp [frameState, afterData, hk]
  have hfail := exec_failed_data (s := frameState s c d k (true :: errs)) h hsub hk rfl
  rw [execTimes_add (execTimes_frameState h hs hk.le he)]
  refine execTimes_cons hfail (execTimes_cons (exec_of_sub_busFail h rfl) ?_)
  rw [execTimes]
  simp only [failedState, frameState, shifted, moveTo, raise, drive, emit, Expect.frameUpTo, hser]
  rw [← List.take_append_getElem hk, List.map_append]
  simp

end

/-- Settles O23: the byte that fails is recorded, ENABLE is released, and the abort follows. -/
theorem busFailureEndsTheFrame : Obligations.BusFailureEndsTheFrame := by
  intro s i c d k errs h hs hk he
  cases k with
  | zero =>
    refine ⟨shiftOut c s.ser, rfl, rfl, ?_⟩
    rw [show (Expect.frameUpTo c d 0).length + 2 = 4 + 1 from rfl, execTimes_add (execTimes_failed_command h hs he)]
    refine execTimes_cons (exec_of_sub_abort h rfl) ?_
    rw [execTimes]
    simp [failedState, abort, emit]
  | succ k =>
    have hlen : (Expect.frameUpTo c d (k + 1)).length = 4 + k + 1 := by
      simp [Expect.frameUpTo, Nat.min_eq_left hk]
      omega
    refine ⟨shiftAll (c :: d.take (k + 1)) s.ser, by simp, ?_, ?_⟩
    · rw [wire_shiftAll, ← List.take_append_getElem hk, List.getLastD_concat]
      simp [List.getElem?_eq_getElem (show k < d.length from hk)]
    · rw [hlen, show 4 + k + 1 + 2 = 4 + k + 2 + 1 by omega, execTimes_add (execTimes_failed_data h hs hk he)]
      refine execTimes_cons (exec_of_sub_abort h rfl) ?_
      rw [execTimes]
      simp [failedState, abort, emit]

end Sys2Proof.Proofs

/-! PROOFS. The frame of a panel command's micro-step (20_memory.md R63, 40_bus_transport.md R121, 41_handshake.md
R140): what none of them touches, and what only some of them do. -/

namespace Sys2Proof.Proofs

open Sys2Proof.Machine Sys2Proof.Laws Sys2Proof.Safety

/-- What no micro-step of a SEND touches. -/
structure SendKept where
  cfg : Config
  regs : HostRegs
  ram : Ram
  hostData : Word
  op : OpCode
  reset : Level
  turns : List Turn
  epoch : Nat

/-- What a state holds of it. -/
def sendKept (s : State) : SendKept where
  cfg := s.cfg
  regs := s.regs
  ram := s.ram
  hostData := s.hostData
  op := s.st.op
  reset := s.lines.reset
  turns := s.env.turns
  epoch := s.env.epoch

theorem sendKept_eq_iff {s t : State} :
    sendKept t = sendKept s ↔ t.cfg = s.cfg ∧ t.regs = s.regs ∧ t.ram = s.ram ∧ t.hostData = s.hostData ∧
      t.st.op = s.st.op ∧ t.lines.reset = s.lines.reset ∧ t.env.turns = s.env.turns ∧ t.env.epoch = s.env.epoch := by
  simp [sendKept]

theorem sendKept_shiftThen (b : Byte) (m : Micro) (s : State) : sendKept (shiftThen b m s) = sendKept s := by
  obtain h | h := shiftThen_st b m s <;> simp [sendKept, h]

theorem sendKept_sample (s : State) : sendKept (afterSample (sampleBusy s)) = sendKept s := by
  obtain ⟨-, h⟩ | ⟨-, -, h⟩ | ⟨-, -, h⟩ := afterSample_cases (sampleBusy s) <;> rw [h] <;> simp [sendKept]

theorem waitStep_sendKept {s t : State} (h : waitStep s = some t) : sendKept t = sendKept s := by
  obtain ⟨-, rfl⟩ | ⟨-, rfl⟩ | ⟨-, rfl⟩ | ⟨-, rfl⟩ | ⟨-, rfl⟩ | ⟨-, rfl⟩ | ⟨-, rfl⟩ | ⟨-, rfl⟩ := waitStep_cases h
  case inr.inr.inl => exact sendKept_sample s
  all_goals rfl

theorem send_sendKept {c : Byte} {src : DataSource} {s t : State} (h : send c src s = .next t) :
    sendKept t = sendKept s := by
  obtain ⟨-, rfl⟩ | ⟨-, rfl⟩ | ⟨-, rfl⟩ | ⟨-, rfl⟩ | ⟨k, -, -, rfl⟩ | ⟨-, rfl⟩ | ⟨-, rfl⟩ | ⟨e, -, rfl⟩ | hw :=
    send_cases h
  case inr.inr.inl => exact sendKept_shiftThen _ _ _
  case inr.inr.inr.inr.inl => exact sendKept_shiftThen _ _ _
  case inr.inr.inr.inr.inr.inr.inr.inr => exact waitStep_sendKept hw
  all_goals rfl

/-- What a wait's micro-step changes of the lines and the poll counter, and where it is. -/
theorem waitStep_frame {s t : State} (h : waitStep s = some t) :
    inWait s.st.sub = true ∧ t.lines.enable = s.lines.enable ∧ t.lines.mode = s.lines.mode ∧
      (s.st.sub ≠ .settle → s.st.sub ≠ .sample → t.st.polls = s.st.polls) := by
  obtain ⟨hs, rfl⟩ | ⟨hs, rfl⟩ | ⟨hs, rfl⟩ | ⟨hs, rfl⟩ | ⟨hs, rfl⟩ | ⟨hs, rfl⟩ | ⟨hs, rfl⟩ | ⟨hs, rfl⟩ :=
    waitStep_cases h <;> rw [hs]
  case inr.inl => exact ⟨rfl, rfl, rfl, fun h1 _ => absurd rfl h1⟩
  case inr.inr.inl =>
    rw [afterSample_eq_setSt, sampleBusy_lines]
    exact ⟨rfl, rfl, rfl, fun _ h2 => absurd rfl h2⟩
  all_goals exact ⟨rfl, rfl, rfl, fun _ _ => rfl⟩

/-- A SEND outside its wait leaves INDICATOR and the poll counter. -/
theorem send_frame {c : Byte} {src : DataSource} {s t : State} (h : send c src s = .next t) :
    waitStep s = some t ∨
      (inWait s.st.sub = false ∧ t.lines.indicator = s.lines.indicator ∧ t.st.polls = s.st.polls) := by
  have hshift (b : Byte) (m : Micro) : (shiftThen b m s).lines.indicator = s.lines.indicator ∧
      (shiftThen b m s).st.polls = s.st.polls := by
    obtain h | h := shiftThen_st b m s <;> simp [h]
  obtain ⟨hs, rfl⟩ | ⟨hs, rfl⟩ | ⟨hs, rfl⟩ | ⟨hs, rfl⟩ | ⟨k, hs, -, rfl⟩ | ⟨hs, rfl⟩ | ⟨hs, rfl⟩ | ⟨e, hs, rfl⟩ | hw :=
    send_cases h
  case inr.inr.inr.inr.inr.inr.inr.inr => exact .inl hw
  all_goals refine .inr ?_; rw [hs]
  case inr.inr.inl => exact ⟨rfl, hshift _ _⟩
  case inr.inr.inr.inr.inl => exact ⟨rfl, hshift _ _⟩
  all_goals exact ⟨rfl, rfl, rfl⟩

theorem send_shown_of_not_abort {c : Byte} {src : DataSource} {s t : State} (h : send c src s = .next t)
    (hs : ∀ e, s.st.sub ≠ .abort e) : shown t = shown s := by
  obtain ⟨-, rfl⟩ | ⟨-, rfl⟩ | ⟨-, rfl⟩ | ⟨-, rfl⟩ | ⟨k, -, -, rfl⟩ | ⟨-, rfl⟩ | ⟨-, rfl⟩ | ⟨e, he, -⟩ | hw :=
    send_cases h
  case inr.inr.inl => exact shown_shiftThen _ _ _
  case inr.inr.inr.inr.inl => exact shown_shiftThen _ _ _
  case inr.inr.inr.inr.inr.inr.inr.inl => exact absurd he (hs e)
  case inr.inr.inr.inr.inr.inr.inr.inr => exact waitStep_shown hw
  all_goals rfl

/-- Settles O25: a SEND keeps what `SendKept` lists, and each of the rest changes at its own positions only. -/
theorem panelCommandFrame : Obligations.PanelCommandFrame := by
  intro s t i c d h ht
  obtain ⟨src, hsend, -⟩ := exec_of_mem_sends h
  rw [hsend] at ht
  obtain ⟨hcfg, hregs, hram, hdata, hop, hreset, hturns, hepoch⟩ := sendKept_eq_iff.mp (send_sendKept ht)
  refine ⟨hcfg, hregs, hdata, hop, hreset, hturns, hepoch, fun a => ?_, fun hs => ?_, ?_⟩
  · simp only [imgByte, pkByte, plaByte, plbByte, hram, hepoch, and_self]
  · obtain ⟨hstate, hbusy, -, herr⟩ := shown_eq_iff.mp (send_shown_of_not_abort ht hs)
    exact ⟨hbusy, hstate, herr⟩
  obtain hw | ⟨hout, hind, hpolls⟩ := send_frame ht
  · obtain ⟨hin, hen, hmode, hpolls⟩ := waitStep_frame hw
    exact ⟨hpolls, fun _ => ⟨hen, hmode⟩, fun hout => by simp [hin] at hout⟩
  · exact ⟨fun _ _ => hpolls, fun hin => by simp [hout] at hin, fun _ => hind⟩

end Sys2Proof.Proofs

/-! PROOFS. The steps of a legal state: there is one whoever moves, a micro-step of the block records one event but for
the encoder's (10_state.md R24), and an operation ends by its OpDone (42_state_machine.md R166, R167). -/

namespace Sys2Proof.Proofs

open Sys2Proof.Machine Sys2Proof.Laws Sys2Proof.Safety

/-! ### A step by whose turn it is -/

theorem step_of_takeTurn_host {s : State} {a : HostAccess} (h : (takeTurn s).1 = .host a) :
    ∃ t, step s = .next t := by
  obtain ⟨rest, hturns⟩ := turns_of_takeTurn_eq_host h
  cases hf : fetchHost a with
  | some i =>
    obtain ⟨v, rfl, -⟩ := fetchHost_some hf
    exact ⟨_, step_of_cmdWrite hturns⟩
  | none => exact ⟨_, step_of_hostAccess hturns hf⟩

/-- The block's micro-step: the panel command at its position, or the sequencer's own (10_state.md R23). -/
def blockMove (s : State) : Host.Outcome State Fault Refusal :=
  (fetchPanel s).elim (sequencerStep s) (exec · s)

theorem step_of_takeTurn_block {s : State} (h : (takeTurn s).1 = .block) : step s = blockMove (takeTurn s).2 := by
  rw [step, blockMove]
  generalize takeTurn s = r at h
  obtain ⟨turn, u⟩ := r
  obtain rfl : turn = .block := h
  dsimp only
  cases fetchPanel u <;> rfl

theorem blockMove_of_idle {s : State} (hb : s.st.busy = false) : blockMove s = .next s := by
  simp [blockMove, fetchPanel, sequencerStep, hb]

section
variable {s : State}

theorem blockMove_of_send {c : Byte} {i : Instr} (hb : s.st.busy = true)
    (hx : stepAt s.st.op s.st.step = some (.send c)) (hd : decodePanel c = .ok i) : blockMove s = exec i s := by
  simp [blockMove, fetchPanel, hb, hx, hd, Except.toOption]

theorem blockMove_of_sequencer {x : SeqStep} (hb : s.st.busy = true) (hx : stepAt s.st.op s.st.step = some x)
    (hc : ∀ c, x ≠ .send c) : blockMove s = sequencerStep s := by
  have hf : fetchPanel s = none := by
    rw [fetchPanel, if_pos hb, hx]
    cases x with
    | send c => exact absurd rfl (hc c)
    | _ => rfl
  rw [blockMove, hf]
  rfl

/-! ### The progress of a legal state -/

theorem pulseStep_moves (h : positionIn s.cfg .resetPulse s.st.sub = true) :
    ∃ t e, pulseStep s = .next t ∧ t.trace = s.trace ++ [e] := by
  have hk : ∃ k ≤ 6, pulseIndex s.st.sub = some k := by
    cases hs : s.st.sub with
    | zero => exact ⟨0, by omega, rfl⟩
    | pulse k => exact ⟨k, by simp_all [positionIn, pulseIndex], rfl⟩
    | _ => simp [hs, positionIn, pulseIndex] at h
  obtain ⟨k, hk, hindex⟩ := hk
  unfold pulseStep
  rw [hindex]
  interval_cases k <;> exact ⟨_, _, rfl, rfl⟩

theorem encodeStep_moves (h : positionIn s.cfg .encode s.st.sub = true) :
    ∃ t, encodeStep s = .next t ∧ t.trace = s.trace := by
  obtain ⟨n, hn, hle⟩ : ∃ n, encodeIndex s.st.sub = some n ∧ n ≤ s.cfg.npk + s.cfg.npl := by
    simpa [positionIn, Option.any_eq_true] using h
  rw [encodeStep, hn]
  obtain hlt | heq := Nat.lt_or_eq_of_le hle
  · exact ⟨_, if_pos hlt, encodeByte_trace n s⟩
  · exact ⟨nextStep s, by simp [heq], rfl⟩

/-- A busy block in a legal state moves, and records one event but at the encode step of a DISPLAY. -/
theorem blockMove_of_legal (hl : Legal s) (hb : s.st.busy = true) :
    ∃ t, blockMove s = .next t ∧
      (s.st.op = 2 ∧ s.st.step = 2 → t.trace = s.trace) ∧
      (¬ (s.st.op = 2 ∧ s.st.step = 2) → ∃ e, t.trace = s.trace ++ [e]) := by
  obtain ⟨x, hx, hpos⟩ := hl.position hb
  have hencode : s.st.op = 2 ∧ s.st.step = 2 ↔ x = .encode :=
    stepAt_eq_encode_iff.symm.trans (by rw [hx, Option.some_inj])
  rw [hencode]
  have hone {o : Host.Outcome State Fault Refusal} (hx : x ≠ .encode)
      (h : ∃ t e, o = .next t ∧ t.trace = s.trace ++ [e]) :
      ∃ t, o = .next t ∧ (x = .encode → t.trace = s.trace) ∧ (x ≠ .encode → ∃ e, t.trace = s.trace ++ [e]) := by
    obtain ⟨t, e, ht, he⟩ := h
    exact ⟨t, ht, fun hx' => absurd hx' hx, fun _ => ⟨e, he⟩⟩
  cases x with
  | send c =>
    obtain ⟨i, hd⟩ := decodePanel_of_stepAt_send hx
    obtain ⟨src, hsend, hlen⟩ := exec_decodePanel hd s
    rw [positionIn_send _ hd, ← hlen] at hpos
    rw [blockMove_of_send hb hx hd, hsend]
    exact hone nofun (send_moves hpos)
  | setState p => exact absurd hx (stepAt_ne_setState_of_legal hl hb p)
  | resetPulse =>
    rw [blockMove_of_sequencer hb hx nofun, sequencerStep, hb, hx]
    exact hone nofun (pulseStep_moves hpos)
  | encode =>
    rw [blockMove_of_sequencer hb hx nofun, sequencerStep, hb, hx]
    obtain ⟨t, ht, htrace⟩ := encodeStep_moves hpos
    exact ⟨t, ht, fun _ => htrace, fun hne => absurd rfl hne⟩
  | enableHigh | release | complete =>
    have hs : s.st.sub = .zero := by simpa [positionIn] using hpos
    rw [blockMove_of_sequencer hb hx nofun, sequencerStep, hb, hx]
    exact hone nofun ⟨_, _, if_pos hs, rfl⟩

end

/-- Settles O49: a reset and a host access always answer, and the block moves from every legal position. -/
theorem legalStatesStep : Obligations.LegalStatesStep := by
  intro s hl
  cases hturn : (takeTurn s).1 with
  | reset p =>
    refine ⟨blockReset p (takeTurn s).2, ?_⟩
    rw [step, ← Prod.eta (takeTurn s), hturn]
  | host a => exact step_of_takeTurn_host hturn
  | block =>
    rw [step_of_takeTurn_block hturn]
    cases hb : s.st.busy with
    | false => exact ⟨_, blockMove_of_idle (by rw [takeTurn_st, hb])⟩
    | true =>
      obtain ⟨t, ht, -⟩ := blockMove_of_legal (legal_takeTurn hl) (by rw [takeTurn_st, hb])
      exact ⟨t, ht⟩

/-- Settles O51: a block's turn is its micro-step, which an idle block has none of. -/
theorem microStepRecordsOneEvent : Obligations.MicroStepRecordsOneEvent := by
  refine ⟨fun s t hl hb hturn h => ?_, fun s hb hq => ?_, fun s rest hb hq => ?_⟩
  · obtain ⟨u, hu, hencode, hother⟩ := blockMove_of_legal (legal_takeTurn hl) (by rw [takeTurn_st, hb])
    rw [step_of_takeTurn_block hturn, hu, Host.Outcome.next.injEq] at h
    subst h
    rw [takeTurn_st, takeTurn_trace] at hencode hother
    exact ⟨hother, hencode⟩
  · have hturn := takeTurn_nil s hq
    rw [step_of_takeTurn_block (by rw [hturn]), hturn, blockMove_of_idle hb]
  · have hturn : takeTurn s = (.block, { s with env := { s.env with turns := rest } }) := by rw [takeTurn, hq]
    rw [step_of_takeTurn_block (by rw [hturn]), hturn]
    exact blockMove_of_idle hb

/-! ### How an operation ends -/

/-- A SEND that ends its operation is an abort. -/
theorem abort_of_send_idle {c : Byte} {src : DataSource} {s t : State} (h : send c src s = .next t)
    (hs : s.st.busy = true) (ht : t.st.busy = false) : ∃ e, s.st.sub = .abort e ∧ t = abort e s := by
  by_contra hne
  have hkept : shown t = shown s := by
    refine send_shown_of_not_abort h fun e he => hne ⟨e, he, ?_⟩
    simpa [send, he, eq_comm] using h
  obtain ⟨-, hbusy, -⟩ := shown_eq_iff.mp hkept
  rw [hbusy, hs] at ht
  cases ht

/-- A sequencer's micro-step that ends its operation is a completion. -/
theorem complete_of_sequencerStep_idle {s t : State} (h : sequencerStep s = .next t) (hs : s.st.busy = true)
    (ht : t.st.busy = false) : ∃ p, stepAt s.st.op s.st.step = some (.complete p) ∧ t = complete p s := by
  have hkept (hbusy : t.st.busy = s.st.busy) : False := by
    rw [hbusy, hs] at ht
    cases ht
  obtain ⟨hb, -⟩ | ⟨-, x, hx, hcase⟩ := sequencerStep_cases h
  · rw [hs] at hb
    cases hb
  obtain ⟨-, hp⟩ | ⟨p, -, -, rfl⟩ | ⟨-, he⟩ | ⟨-, -, rfl⟩ | ⟨-, -, rfl⟩ | ⟨p, rfl, -, rfl⟩ := hcase
  · obtain ⟨-, hbusy, -⟩ := shown_eq_iff.mp (pulseStep_shown hp)
    exact (hkept hbusy).elim
  · exact (hkept rfl).elim
  · obtain ⟨-, hbusy, -⟩ := shown_eq_iff.mp (encodeStep_shown he)
    exact (hkept hbusy).elim
  · exact (hkept rfl).elim
  · exact (hkept rfl).elim
  · exact ⟨p, hx, rfl⟩

/-- Everything that can end an operation but a block reset: the abort of a raised error, or the completion of its last
step. -/
theorem step_ends_cases {s t : State} (h : step s = .next t) (hs : s.st.busy = true) (ht : t.st.busy = false)
    (hr : ∀ p, (takeTurn s).1 ≠ .reset p) :
    (∃ e, s.st.sub = .abort e ∧ t = abort e (takeTurn s).2) ∨
    (∃ p, stepAt s.st.op s.st.step = some (.complete p) ∧ t = complete p (takeTurn s).2) := by
  have hs' : (takeTurn s).2.st.busy = true := by rw [takeTurn_st, hs]
  have hkept (hst : t.st = (takeTurn s).2.st) : False := by
    rw [hst, hs'] at ht
    cases ht
  obtain ⟨p, hp, -⟩ | ⟨a, i, -, hf, he⟩ | ⟨a, -, -, rfl⟩ | ⟨-, i, hf, he⟩ | ⟨-, -, hq⟩ := step_cases h
  · exact absurd hp (hr p)
  · obtain ⟨v, -, rfl⟩ := fetchHost_some hf
    rw [exec_decodeHost, hostCommand_of_busy hs', Host.Outcome.next.injEq] at he
    exact (hkept (by rw [he])).elim
  · exact (hkept (hostAccess_st a _)).elim
  · obtain ⟨-, c, -, hd⟩ := fetchPanel_some hf
    obtain ⟨src, hsend, -⟩ := exec_decodePanel hd (takeTurn s).2
    obtain ⟨e, hsub, rfl⟩ := abort_of_send_idle (hsend ▸ he) hs' ht
    exact .inl ⟨e, by rwa [takeTurn_st] at hsub, rfl⟩
  · obtain ⟨p, hp, rfl⟩ := complete_of_sequencerStep_idle hq hs' ht
    exact .inr ⟨p, by rwa [takeTurn_st] at hp, rfl⟩

/-- The errors raised inside a SEND (60_exceptions.md R263, R264). -/
theorem err_of_abort {s : State} {e : Err} (hl : Legal s) (hb : s.st.busy = true) (hs : s.st.sub = .abort e) :
    e = .busFailure ∨ e = .deviceUnresponsive := by
  obtain ⟨x, -, hpos⟩ := hl.position hb
  cases x with
  | send c =>
    cases hd : decodePanel c with
    | error r => simp [positionIn, hd] at hpos
    | ok i => cases e <;> simp_all [positionIn, inSend]
  | _ => simp [positionIn, hs, pulseIndex, encodeIndex] at hpos

/-- At the last step of an operation ENABLE is up, or released with the other lines. -/
theorem enable_ne_lo_of_complete {s : State} {p : PanelState} (hl : Legal s) (hb : s.st.busy = true)
    (hx : stepAt s.st.op s.st.step = some (.complete p)) : s.lines.enable ≠ .lo := by
  obtain ⟨y, hy, hpos⟩ := hl.position hb
  obtain rfl : y = .complete p := by rw [hx] at hy; exact (Option.some.inj hy).symm
  have hsub : s.st.sub = .zero := by simpa [positionIn] using hpos
  cases hr : linesReleased s.st with
  | true => rw [hl.released hr]; nofun
  | false =>
    obtain ⟨hen, -⟩ := linesLegal_iff.mp (hl.driven hr)
    rw [hen, hsub]
    nofun

/-- Settles O55: an abort or a completion, and each records its OpDone. -/
theorem operationsEndWithOpDone : Obligations.OperationsEndWithOpDone := by
  intro s t hl h hs ht hr
  obtain ⟨e, he, rfl⟩ | ⟨p, hp, rfl⟩ := step_ends_cases h hs ht hr
  · obtain ⟨hen, -⟩ := linesLegal_iff.mp (linesLegal_of_abort hl hs he)
    have hen' : s.lines.enable = .hi := hen
    refine ⟨by simp, by simp, by simp [hen'], .inr ⟨rfl, err_of_abort hl hs he⟩⟩
  · have htarget : p = .awake ∨ p = .asleep ∨ p = .released := by
      obtain ⟨-, -, hp⟩ | ⟨-, hp | hp⟩ := target_of_stepAt_complete hp <;> simp [hp]
    refine ⟨by simp, by simp, ?_, .inl ⟨rfl, htarget⟩⟩
    rw [complete_lines, takeTurn_lines]
    exact enable_ne_lo_of_complete hl hs hp

end Sys2Proof.Proofs

/-! PROOFS. The encoder in closed form (43_framebuffer_encoder.md R203, R205 to R209): what stands in PK, PLA and PLB
after each of its micro-steps, and what the planes hold at its end. -/

namespace Sys2Proof.Proofs

open Sys2Proof.Machine Sys2Proof.Laws Sys2Proof.Safety

/-! ### Bits and codes -/

theorem getLsbD_quantise (p : Byte) : (quantise p).getLsbD 1 = p.getLsbD 7 ∧ (quantise p).getLsbD 0 = p.getLsbD 6 := by
  simp [quantise]

/-- Split reads back each code that Pack wrote (43_framebuffer_encoder.md R203, R205). -/
theorem codeOf_packCodes (a b c d : BitVec 2) :
    codeOf (packCodes a b c d) 0 = a ∧ codeOf (packCodes a b c d) 1 = b ∧ codeOf (packCodes a b c d) 2 = c ∧
      codeOf (packCodes a b c d) 3 = d := by
  refine ⟨?_, ?_, ?_, ?_⟩ <;> ext k hk <;> interval_cases k <;> simp [codeOf, packCodes]

theorem codeOf_packValue (s : State) (b : Nat) {j : Nat} (hj : j < 4) :
    codeOf (packValue s b) j = quantise (samplePixel s (4 * b + j)) := by
  obtain ⟨h0, h1, h2, h3⟩ := codeOf_packCodes (quantise (samplePixel s (4 * b)))
    (quantise (samplePixel s (4 * b + 1))) (quantise (samplePixel s (4 * b + 2))) (quantise (samplePixel s (4 * b + 3)))
  interval_cases j
  · exact h0
  · exact h1
  · exact h2
  · exact h3

theorem getLsbD_scanByte (f : Nat → Bool) {k : Nat} (hk : k < 8) : (Expect.scanByte f).getLsbD (7 - k) = f k := by
  interval_cases k <;> simp only [Expect.scanByte, BitVec.getLsbD_append] <;> simp

theorem getLsbD_packBits (f : Nat → Bool) {k : Nat} (hk : k < 8) : (packBits f).getLsbD (7 - k) = f k := by
  interval_cases k <;> simp [packBits, List.range, List.range.loop]

/-- A byte is its bits in scan order, the first in bit 7 (20_memory.md R68). -/
theorem eq_of_scan_bits {a b : Byte} (h : ∀ k < 8, a.getLsbD (7 - k) = b.getLsbD (7 - k)) : a = b := by
  refine BitVec.eq_of_getLsbD_eq fun i hi => ?_
  have hk := h (7 - i) (by omega)
  rwa [show 7 - (7 - i) = i by omega] at hk

theorem scanByte_congr {f g : Nat → Bool} (h : ∀ k < 8, f k = g k) : Expect.scanByte f = Expect.scanByte g :=
  eq_of_scan_bits fun k hk => by rw [getLsbD_scanByte f hk, getLsbD_scanByte g hk, h k hk]

theorem packBits_eq_scanByte (f : Nat → Bool) : packBits f = Expect.scanByte f :=
  eq_of_scan_bits fun k hk => by rw [getLsbD_packBits f hk, getLsbD_scanByte f hk]

/-! ### The encoder's micro-steps -/

/-- The state after `n` bytes of ENCODE. -/
def encoded : Nat → State → State
  | 0, s => s
  | n + 1, s => moveTo (.encode (n + 1)) (encodeByte n (encoded n s))

/-- ENCODE writes PK, PLA and PLB, and moves inside its step. -/
theorem encoded_eq (n : Nat) (s : State) :
    encoded n s = { s with
      st := { s.st with sub := (encoded n s).st.sub }, ram := { (encoded n s).ram with img := s.ram.img } } := by
  induction n with
  | zero => rfl
  | succ n ih =>
    have hmove : encoded (n + 1) s =
        { encoded n s with
          st := { (encoded n s).st with sub := .encode (n + 1) }, ram := (encodeByte n (encoded n s)).ram } := by
      rw [encoded, encodeByte]
      split <;> rfl
    have himg : (encodeByte n (encoded n s)).ram.img = s.ram.img := by rw [encodeByte_img, ih]
    rw [hmove, ← himg, ih]

theorem encodeIndex_encoded {s : State} (hs : s.st.sub = .zero) (n : Nat) :
    encodeIndex (encoded n s).st.sub = some n := by
  cases n with
  | zero => rw [encoded, hs]; rfl
  | succ n => rfl

@[simp] theorem encoded_cfg (n : Nat) (s : State) : (encoded n s).cfg = s.cfg := by rw [encoded_eq]
@[simp] theorem encoded_epoch (n : Nat) (s : State) : (encoded n s).env.epoch = s.env.epoch := by rw [encoded_eq]

theorem atStep_encoded {s : State} (h : AtStep .encode s) (n : Nat) : AtStep .encode (encoded n s) := by
  rw [encoded_eq]
  exact ⟨h.busy, h.quiet, h.here⟩

theorem step_of_encodeStep {s t : State} (h : AtStep .encode s) (he : encodeStep s = .next t) : step s = .next t := by
  rw [step_of_quiet_sequencer h nofun, sequencerStep]
  simp [h.busy, h.here, he]

/-- Each of the `NPK + NPL` bytes is one micro-step (log 11). -/
theorem steps_encoded {s : State} (h : AtStep .encode s) (hs : s.st.sub = .zero) {n : Nat}
    (hn : n ≤ s.cfg.npk + s.cfg.npl) : steps n s = .next (encoded n s) := by
  induction n with
  | zero => rfl
  | succ n ih =>
    have hstep : encodeStep (encoded n s) = .next (encoded (n + 1) s) := by
      rw [encodeStep, encodeIndex_encoded hs]
      exact if_pos (by rw [encoded_cfg]; omega)
    rw [steps_add (ih (by omega)), steps_succ (step_of_encodeStep (atStep_encoded h n) hstep), steps]

/-- Where ENCODE leaves a block that started it in `s`. -/
def encodingDone (s : State) : State := nextStep (encoded (s.cfg.npk + s.cfg.npl) s)

theorem steps_encodingDone {s : State} (h : AtStep .encode s) (hs : s.st.sub = .zero) :
    steps (s.cfg.npk + s.cfg.npl + 1) s = .next (encodingDone s) := by
  have hlast : encodeStep (encoded (s.cfg.npk + s.cfg.npl) s) = .next (encodingDone s) := by
    rw [encodeStep, encodeIndex_encoded hs, encoded_cfg]
    simp [encodingDone]
  rw [steps_add (steps_encoded h hs le_rfl), steps_succ (step_of_encodeStep (atStep_encoded h _) hlast), steps]

theorem encodingDone_eq (s : State) :
    encodingDone s = { s with
      st := { s.st with step := s.st.step + 1, sub := .zero }
      ram := { (encodingDone s).ram with img := s.ram.img } } := by
  rw [encodingDone, nextStep_ram, encoded_eq]
  rfl

/-! ### What is written -/

theorem samplePixel_encoded (n : Nat) (s : State) (i : Nat) : samplePixel (encoded n s) i = samplePixel s i := by
  rw [samplePixel, samplePixel, encoded_cfg, imgByte, imgByte, encoded_epoch, encoded_eq]

theorem packValue_encoded (n : Nat) (s : State) (b : Nat) : packValue (encoded n s) b = packValue s b := by
  simp only [packValue, samplePixel_encoded]

theorem pkByte_encodeByte (n : Nat) (s : State) (b : Nat) :
    pkByte (encodeByte n s) b = if n < s.cfg.npk ∧ b = n then packValue s n else pkByte s b := by
  rw [pkByte, pkByte, encodeByte_env, encodeByte]
  split
  · next h => simp [readByte_write, h]
  · next h => simp [h]

theorem plaByte_encodeByte (n : Nat) (s : State) (o : Nat) :
    plaByte (encodeByte n s) o = if s.cfg.npk ≤ n ∧ o = n - s.cfg.npk then splitA s o else plaByte s o := by
  rw [plaByte, plaByte, encodeByte_env, encodeByte]
  split
  · next h => simp [Nat.not_le.mpr h]
  · next h =>
    simp only [readByte_write, Nat.not_lt.mp h, true_and]
    split_ifs with ho <;> simp [ho]

theorem plbByte_encodeByte (n : Nat) (s : State) (o : Nat) :
    plbByte (encodeByte n s) o = if s.cfg.npk ≤ n ∧ o = n - s.cfg.npk then splitB s o else plbByte s o := by
  rw [plbByte, plbByte, encodeByte_env, encodeByte]
  split
  · next h => simp [Nat.not_le.mpr h]
  · next h =>
    simp only [readByte_write, Nat.not_lt.mp h, true_and]
    split_ifs with ho <;> simp [ho]

/-- PK fills from its first byte on, and keeps its Pack values (43_framebuffer_encoder.md R203). -/
theorem pkByte_encoded {s : State} {n b : Nat} (hb : b < s.cfg.npk) (hn : b < n) :
    pkByte (encoded n s) b = packValue s b := by
  induction n with
  | zero => omega
  | succ n ih =>
    have hmove : pkByte (encoded (n + 1) s) b = pkByte (encodeByte n (encoded n s)) b := rfl
    rw [hmove, pkByte_encodeByte, encoded_cfg, packValue_encoded]
    split_ifs with h
    · rw [h.2]
    · exact ih (by omega)

/-! ### What the planes hold -/

theorem npk_eq {c : Config} (h : c.wellFormed = true) : c.npk = 2 * c.npl := by
  obtain ⟨k, hk⟩ := eight_dvd_npix h
  unfold Config.npix at hk
  unfold Config.npk Config.npl
  omega

theorem npix_eq {c : Config} (h : c.wellFormed = true) : c.npix = 8 * c.npl := by
  obtain ⟨k, hk⟩ := eight_dvd_npix h
  unfold Config.npix at hk ⊢
  unfold Config.npl
  omega

/-- Byte `o` of the plane that carries bit `bit` of each sampled pixel (43_framebuffer_encoder.md R207). -/
def planeByte (s : State) (bit o : Nat) : Byte := Expect.scanByte fun k => (samplePixel s (8 * o + k)).getLsbD bit

section
variable {s : State} {n o : Nat}

/-- Once PK is full, Split sees the codes of the sampled pixels. -/
theorem splitCode_encoded (hwf : s.cfg.wellFormed = true) (ho : o < s.cfg.npl) (hn : s.cfg.npk ≤ n) {k : Nat}
    (hk : k < 8) : splitCode (encoded n s) o k = quantise (samplePixel s (8 * o + k)) := by
  have hb : 2 * o + k / 4 < s.cfg.npk := by rw [npk_eq hwf]; omega
  rw [splitCode, pkByte_encoded hb (by omega), codeOf_packValue s _ (Nat.mod_lt k (by decide)),
    show 4 * (2 * o + k / 4) + k % 4 = 8 * o + k by omega]

theorem splitA_encoded (hwf : s.cfg.wellFormed = true) (ho : o < s.cfg.npl) (hn : s.cfg.npk ≤ n) :
    splitA (encoded n s) o = planeByte s 7 o := by
  rw [splitA, packBits_eq_scanByte]
  refine scanByte_congr fun k hk => ?_
  rw [splitCode_encoded hwf ho hn hk, (getLsbD_quantise _).1]

theorem splitB_encoded (hwf : s.cfg.wellFormed = true) (ho : o < s.cfg.npl) (hn : s.cfg.npk ≤ n) :
    splitB (encoded n s) o = planeByte s 6 o := by
  rw [splitB, packBits_eq_scanByte]
  refine scanByte_congr fun k hk => ?_
  rw [splitCode_encoded hwf ho hn hk, (getLsbD_quantise _).2]

/-- The planes fill after PK, from their first byte on, and keep their Split values. -/
theorem planes_encoded (hwf : s.cfg.wellFormed = true) (ho : o < s.cfg.npl) (hn : s.cfg.npk + o < n) :
    plaByte (encoded n s) o = planeByte s 7 o ∧ plbByte (encoded n s) o = planeByte s 6 o := by
  induction n with
  | zero => omega
  | succ n ih =>
    have hmove : plaByte (encoded (n + 1) s) o = plaByte (encodeByte n (encoded n s)) o ∧
        plbByte (encoded (n + 1) s) o = plbByte (encodeByte n (encoded n s)) o := ⟨rfl, rfl⟩
    obtain ⟨hA, hB⟩ := hmove
    rw [hA, hB, plaByte_encodeByte, plbByte_encodeByte, encoded_cfg]
    split_ifs with h
    · exact ⟨splitA_encoded hwf ho h.1, splitB_encoded hwf ho h.1⟩
    · exact ih (by omega)

end

section
variable {s : State}

theorem pkByte_encodingDone {b : Nat} (hb : b < s.cfg.npk) : pkByte (encodingDone s) b = packValue s b :=
  pkByte_encoded hb (n := s.cfg.npk + s.cfg.npl) (by omega)

theorem planes_encodingDone (hwf : s.cfg.wellFormed = true) {o : Nat} (ho : o < s.cfg.npl) :
    plaByte (encodingDone s) o = planeByte s 7 o ∧ plbByte (encodingDone s) o = planeByte s 6 o :=
  planes_encoded hwf ho (n := s.cfg.npk + s.cfg.npl) (by omega)

theorem atStep_encode (hb : s.st.busy = true) (hop : s.st.op = 2) (hstep : s.st.step = 2) (hq : s.env.turns = []) :
    AtStep .encode s :=
  ⟨hb, hq, by rw [hop, hstep]; rfl⟩

/-- Settles O35: Pack, then Split of what Pack wrote. -/
theorem encodeClosedForm : Obligations.EncodeClosedForm := by
  intro s hwf hb hop hstep hs hq
  refine ⟨encodingDone s, steps_encodingDone (atStep_encode hb hop hstep hq) hs, ?_, fun b hb => ?_,
    fun o k ho hk => ?_⟩
  · rw [encodingDone_eq, hstep, ← hs]
  · rw [pkByte_encodingDone hb]
    rfl
  · obtain ⟨hA, hB⟩ := planes_encodingDone hwf ho
    rw [hA, hB, planeByte, planeByte, getLsbD_scanByte _ hk, getLsbD_scanByte _ hk]
    exact ⟨rfl, rfl⟩

/-! ### What the planes depend on -/

/-- Sampling never leaves the image (43_framebuffer_encoder.md R202). -/
theorem sampleIndex_lt {c : Config} {i : Nat} (hi : i < c.npix) : sampleIndex c i < c.npix := by
  unfold sampleIndex
  split
  · exact hi
  · have hpos : (0 : Int) < c.npix := by omega
    have hlt := Int.emod_lt_of_pos ((i : Int) - 3) hpos
    omega

/-- The plane bits of a pixel are those of its shade (43_framebuffer_encoder.md R204). -/
theorem planeBits_of_pixel (p : Byte) : (shadeOfCode (quantise p)).planeBits = (p.getLsbD 7, p.getLsbD 6) := by
  obtain ⟨h1, h0⟩ := getLsbD_quantise p
  rw [planeBits_shadeOfCode, h1, h0]

/-- The byte of a plane whose bits are all the same. -/
theorem scanByte_const (b : Bool) : (Expect.scanByte fun _ => b) = if b then 0xFF else 0x00 := by
  cases b <;> rfl

/-- Settles O36: every sampled pixel is one of the image, and so has its plane bits. -/
theorem uniformImagesEncodeUniformly : Obligations.UniformImagesEncodeUniformly := by
  intro s sh hwf hb hop hstep hs hq huniform
  refine ⟨encodingDone s, steps_encodingDone (atStep_encode hb hop hstep hq) hs, fun o ho => ?_⟩
  have hbits : ∀ k < 8, (samplePixel s (8 * o + k)).getLsbD 7 = sh.planeBits.1 ∧
      (samplePixel s (8 * o + k)).getLsbD 6 = sh.planeBits.2 := by
    intro k hk
    have hi : 8 * o + k < s.cfg.npix := by rw [npix_eq hwf]; omega
    rw [← huniform _ (sampleIndex_lt hi), planeBits_of_pixel]
    exact ⟨rfl, rfl⟩
  obtain ⟨hA, hB⟩ := planes_encodingDone hwf ho
  rw [hA, hB, planeByte, planeByte, scanByte_congr fun k hk => (hbits k hk).1,
    scanByte_congr fun k hk => (hbits k hk).2, scanByte_const, scanByte_const]
  cases sh <;> exact ⟨rfl, rfl⟩

theorem sampleIndex_congr {c c' : Config} (hw : c'.w = c.w) (hh : c'.h = c.h) (hm : c'.sampling = c.sampling)
    (i : Nat) : sampleIndex c' i = sampleIndex c i := by
  simp only [sampleIndex, Config.npix, hw, hh, hm]

/-- Settles O37: the planes hold bits of sampled pixels, which the image, the size and the sampling mode fix. -/
theorem encodingDependsOnTheImageOnly : Obligations.EncodingDependsOnTheImageOnly := by
  rintro s s' hwf hw hh hm himg ⟨hb, hop, hstep, hs, hq⟩ ⟨hb', hop', hstep', hs', hq'⟩
  have hnpk : s'.cfg.npk = s.cfg.npk := by rw [Config.npk, Config.npk, hw, hh]
  have hnpl : s'.cfg.npl = s.cfg.npl := by rw [Config.npl, Config.npl, hw, hh]
  have hwf' : s'.cfg.wellFormed = true := by
    rw [← hwf]
    simp only [Config.wellFormed, Config.rowsInGroups, Config.planesWhole, hw, hh]
  have hsample : ∀ i < s.cfg.npix, samplePixel s' i = samplePixel s i := by
    intro i hi
    rw [samplePixel, samplePixel, sampleIndex_congr hw hh hm, himg _ (sampleIndex_lt hi)]
  have hplane (bit : Nat) {o : Nat} (ho : o < s.cfg.npl) : planeByte s' bit o = planeByte s bit o :=
    scanByte_congr fun k hk => by rw [hsample _ (by rw [npix_eq hwf]; omega)]
  have hrun' := steps_encodingDone (atStep_encode hb' hop' hstep' hq') hs'
  rw [hnpk, hnpl] at hrun'
  refine ⟨encodingDone s, encodingDone s', steps_encodingDone (atStep_encode hb hop hstep hq) hs, hrun',
    fun o ho => ?_⟩
  obtain ⟨hA, hB⟩ := planes_encodingDone hwf ho
  obtain ⟨hA', hB'⟩ := planes_encodingDone hwf' (by rwa [hnpl])
  exact ⟨by rw [hA, hA', hplane 7 ho], by rw [hB, hB', hplane 6 ho]⟩

end

end Sys2Proof.Proofs

/-! PROOFS. The whole of DISPLAY, CLEAR, SLEEP and TEARDOWN (42_state_machine.md R171 to R174): an acceptance, the
transactions of the step list with their waits, and the completion. -/

namespace Sys2Proof.Proofs

open Sys2Proof.Machine Sys2Proof.Laws Sys2Proof.Safety

/-! ### Transactions up to the completion -/

/-- Transactions at consecutive steps, at least one of them, and the completion after the last. -/
theorem records_toCompletion {s : State} {ts : List (Byte × List Byte)} {ms : List Nat} {p : PanelState}
    {errs : List Bool} {busy : List Logic} (hb : s.st.busy = true) (hq : s.env.turns = []) (hs : s.st.sub = .zero)
    (hfrom : SendsFrom s.st.op s.st.step ts) (hdone : stepAt s.st.op (s.st.step + ms.length) = some (.complete p))
    (hsends : ∀ x ∈ ts, ∃ i, (i, x) ∈ Expect.sends s) (hlen : ms.length = ts.length) (hne : ms ≠ [])
    (ha : ∀ m ∈ ms, Expect.allows s.regs.timeout m)
    (he : s.env.busErrIn = List.replicate (Expect.byteCount ts) false ++ errs)
    (hy : s.env.busyIn = Expect.allSamples s.cfg ms ++ busy) :
    ∃ t, Records s (Expect.transactions s.cfg ts ms ++ [.opDone s.st.op .none]) t ∧
      t.st = Expect.completed s.st s.st.op p (Expect.counted (ms.getLastD 0)) ∧ t.lines = Expect.afterSend s.lines ∧
      t.cfg = s.cfg ∧ t.regs = s.regs ∧ t.ram = s.ram := by
  obtain ⟨ser, hrun⟩ := records_transactions hb hq hs hfrom hsends hlen ha he hy
  have hlast := records_complete (p := p)
    (s := afterTransactions s ms (Expect.transactions s.cfg ts ms) ser errs busy) ⟨hb, hq, hdone⟩ rfl
  refine ⟨_, hrun.append hlast, ?_, ?_, rfl, rfl, rfl⟩
  · rw [complete_st, afterTransactions, getLastD_map_counted hne]
    rfl
  · rw [complete_lines, afterTransactions, if_neg hne]

/-- A block that has just accepted `op`, in state `p`, before its step `n`. -/
def started (s : State) (op : OpCode) (p : PanelState) (n : Nat) : State :=
  { s with
    st := { s.st with state := p, busy := true, op := op, err := .none, step := n, sub := .zero }
    env := { s.env with turns := [] } }

/-! ### CLEAR -/

theorem mem_sends_of_mem_clear (s : State) :
    ∀ x ∈ [((0x10 : Byte), List.replicate s.cfg.npl (0xFF : Byte)), (0x13, List.replicate s.cfg.npl 0xFF), (0x12, [])],
      ∃ i, (i, x) ∈ Expect.sends (started s opClear .clearing 2) := by
  simp [Expect.sends, Expect.oldData, Expect.newData, started]

theorem sendsFrom_planes {op : OpCode} {n : Nat} (h0 : stepAt op n = some (.send 0x10))
    (h1 : stepAt op (n + 1) = some (.send 0x13)) (h2 : stepAt op (n + 2) = some (.send 0x12)) (a b : List Byte) :
    SendsFrom op n [(0x10, a), (0x13, b), (0x12, [])] :=
  ⟨h0, h1, h2, trivial⟩

theorem byteCount_planes {a b : List Byte} {n : Nat} (ha : a.length = n) (hb : b.length = n) :
    Expect.byteCount [(0x10, a), (0x13, b), (0x12, [])] = 2 * n + 3 := by
  simp only [Expect.byteCount, ha, hb, List.length_nil]
  omega

/-- Settles O29: CLEAR starts at its step 2, and WHITE is the data of both memories while it runs. -/
theorem clearSendsWhitePlanes : Obligations.ClearSendsWhitePlanes := by
  intro s v ms errs busy hidle hstate hv hturns hlen ha he hy
  have haccept : step s = .next (started s opClear .clearing 2) :=
    step_of_accepted hv hidle hturns (check_clear hstate)
  rw [← byteCount_planes List.length_replicate List.length_replicate] at he
  obtain ⟨t, ⟨hsteps, htrace⟩, hst, hlines, hcfg, hregs, hram⟩ :=
    records_toCompletion (s := started s opClear .clearing 2) (p := .awake) rfl rfl rfl
      (sendsFrom_planes rfl rfl rfl _ _) (by rw [hlen]; rfl) (mem_sends_of_mem_clear s) hlen
      (List.ne_nil_of_length_eq_add_one hlen) ha he hy
  exact ⟨t, _, htrace, (steps_add (steps_succ haccept 0) _).trans hsteps, rfl, hst, hlines, hcfg, hregs, hram⟩

/-! ### SLEEP -/

theorem length_sleepEvents (c : Config) (m n : Nat) :
    (Expect.transactions c [(0x02, []), (0x07, [0xA5])] [m, n] ++ [Event.opDone 4 .none]).length =
      22 + 3 * (m + n) := by
  simp [Expect.transactions, length_frame, length_wait]
  omega

/-- Settles O30: SLEEP stays in its source state until it completes. -/
theorem sleepSendsPowerOffAndDeepSleep : Obligations.SleepSendsPowerOffAndDeepSleep := by
  intro s v m n errs busy hidle hstate hv hturns ham han he hy
  have haccept : step s = .next (started s opSleep s.st.state 1) :=
    step_of_accepted hv hidle hturns (check_sleep hstate)
  obtain ⟨t, ⟨hsteps, htrace⟩, hst, hlines, hcfg, hregs, hram⟩ :=
    records_toCompletion (s := started s opSleep s.st.state 1) (p := .asleep)
      (ts := [(0x02, []), (0x07, [0xA5])]) (ms := [m, n]) rfl rfl rfl
      ⟨rfl, rfl, trivial⟩ rfl (by simp [Expect.sends]) rfl (by simp) (by simpa using ⟨ham, han⟩) he hy
  refine ⟨t, ?_, htrace.trans (List.append_assoc _ _ _).symm, hst, hlines, hcfg, hregs, hram⟩
  rw [show 23 + 3 * (m + n) = 1 + (22 + 3 * (m + n)) by omega, steps_add (steps_succ haccept 0),
    ← length_sleepEvents s.cfg m n]
  exact hsteps

/-! ### DISPLAY -/

/-- A DISPLAY accepted in `s`, after its ENCODE, which has left `m` in the memories it writes. -/
def displayEncoded (s : State) (m : Ram) : State :=
  { started s opDisplay .displaying 3 with ram := { m with img := s.ram.img } }

/-- The encode step of a DISPLAY leaves in the planes what 0x10 and 0x13 send (43_framebuffer_encoder.md R207). -/
theorem encode_of_started {s : State} (hwf : s.cfg.wellFormed = true) :
    ∃ m, steps (s.cfg.npk + s.cfg.npl + 1) (started s opDisplay .displaying 2) = .next (displayEncoded s m) ∧
      Expect.oldData (displayEncoded s m) = Expect.plane s 7 ∧
      Expect.newData (displayEncoded s m) = Expect.plane s 6 := by
  have hrun := steps_encodingDone (s := started s opDisplay .displaying 2) ⟨rfl, rfl, rfl⟩ rfl
  have hdone : encodingDone (started s opDisplay .displaying 2) =
      displayEncoded s (encodingDone (started s opDisplay .displaying 2)).ram := encodingDone_eq _
  have hplanes {o : Nat} (ho : o ∈ List.range s.cfg.npl) :=
    planes_encodingDone (s := started s opDisplay .displaying 2) hwf (List.mem_range.mp ho)
  rw [hdone] at hrun hplanes
  exact ⟨_, hrun, List.map_congr_left fun o ho => (hplanes ho).1, List.map_congr_left fun o ho => (hplanes ho).2⟩

theorem length_plane (s : State) (bit : Nat) : (Expect.plane s bit).length = s.cfg.npl := by
  simp [Expect.plane]

theorem mem_sends_of_mem_display {s : State} {m : Ram} (hold : Expect.oldData (displayEncoded s m) = Expect.plane s 7)
    (hnew : Expect.newData (displayEncoded s m) = Expect.plane s 6) :
    ∀ x ∈ [((0x10 : Byte), Expect.plane s 7), (0x13, Expect.plane s 6), (0x12, [])],
      ∃ i, (i, x) ∈ Expect.sends (displayEncoded s m) := by
  simp [Expect.sends, hold, hnew]

/-- Settles O28: ENCODE records nothing, and leaves in the planes what the two transactions send. -/
theorem displaySendsBothPlanes : Obligations.DisplaySendsBothPlanes := by
  intro s v ms errs busy hwf hidle hstate hvalid hw hh hv hturns hlen ha he hy
  have haccept : step s = .next (started s opDisplay .displaying 2) :=
    step_of_accepted hv hidle hturns (check_display hstate hvalid hw hh)
  obtain ⟨m, hencode, hold, hnew⟩ := encode_of_started hwf
  rw [← byteCount_planes (length_plane s 7) (length_plane s 6)] at he
  obtain ⟨t, ⟨hsteps, htrace⟩, hst, hlines, hcfg, hregs, hram⟩ :=
    records_toCompletion (s := displayEncoded s m) (p := .awake) rfl rfl rfl (sendsFrom_planes rfl rfl rfl _ _)
      (by rw [hlen]; rfl) (mem_sends_of_mem_display hold hnew) hlen (List.ne_nil_of_length_eq_add_one hlen) ha he hy
  refine ⟨t, _, htrace, ?_, rfl, hst, hlines, hcfg, hregs, by rw [hram]; rfl⟩
  rw [Nat.add_assoc, steps_add (steps_succ haccept 0), steps_add hencode]
  exact hsteps

/-! ### TEARDOWN -/

/-- Settles O31: TEARDOWN's three steps are of one micro-step each. -/
theorem teardownReleasesTheLines : Obligations.TeardownReleasesTheLines := by
  intro s v hidle hstate hv hturns
  have haccept : step s = .next (started s opTeardown s.st.state 1) :=
    step_of_accepted hv hidle hturns (check_teardown hstate)
  have hstep {u t : State} {x : SeqStep} (h : AtStep x u) (hx : ∀ c, x ≠ .send c) (ht : sequencerStep u = .next t) :
      step u = .next t := (step_of_quiet_sequencer h hx).trans ht
  rw [steps_succ haccept, steps_succ (hstep (x := .enableHigh) ⟨rfl, rfl, rfl⟩ nofun rfl),
    steps_succ (hstep (x := .release) ⟨rfl, rfl, rfl⟩ nofun rfl),
    steps_succ (hstep (x := .complete .released) ⟨rfl, rfl, rfl⟩ nofun rfl), steps]
  simp [started, complete, nextStep, releaseLines, drive, emit, allReleased, Expect.completed]

end Sys2Proof.Proofs

/-! PROOFS. What the panel contract makes of an operation's events (60_exceptions.md R270, R278, R279): a frame hands
its transaction to the panel, a wait tells it nothing, and so the planes of a DISPLAY or a CLEAR are what its surface
shows. -/

namespace Sys2Proof.Proofs

open Sys2Proof.Machine Sys2Proof.Laws Sys2Proof.Safety

/-! ### What an observer makes of a SEND -/

/-- The panel once a record still open has reached it. -/
def flushed (c : Config) (w : PanelWatch) : PanelView := w.cut.current.elim w.panel (w.panel.receive c)

/-- An observer between two frames, with ENABLE up. -/
def between (v : PanelView) : PanelWatch := { cut := { enable := .hi, current := none }, panel := v }

theorem seeAll_data (c : Config) (v : PanelView) (en : Level) (t : Transaction) (d : List Byte) :
    PanelWatch.seeAll c { cut := { enable := en, current := some t }, panel := v } (d.map (.byte .hi ·)) =
      { cut := { enable := en, current := some { t with data := t.data ++ d } }, panel := v } := by
  induction d generalizing t with
  | nil => simp
  | cons b d ih => rw [List.map_cons, seeAll_cons, see_data, ih]; simp

/-- A whole frame hands its transaction to the panel, after a record that was still open. -/
theorem seeAll_frame (c : Config) (w : PanelWatch) (op : Byte) (d : List Byte) :
    w.seeAll c (Expect.frame op d) = between ((flushed c w).receive c { cmd := op, data := d }) := by
  obtain ⟨⟨en, cur⟩, v⟩ := w
  rw [Expect.frame, seeAll_append, seeAll_append]
  simp only [seeAll_cons, seeAll_nil, see_mode, see_enableLo, see_command]
  rw [seeAll_data, see_enableHi, List.nil_append]
  exact congrArg between (receive_begin c _ { cmd := op, data := d })

theorem seeAll_polls (c c' : Config) (w : PanelWatch) (m : Nat) : w.seeAll c (Expect.polls c' m) = w := by
  induction m with
  | zero => rfl
  | succ m ih => simp [Expect.polls, seeAll_append, ih]

/-- A wait tells the panel's observer nothing. -/
theorem seeAll_wait (c c' : Config) (w : PanelWatch) (m : Nat) : w.seeAll c (Expect.wait c' m) = w := by
  simp [Expect.wait, seeAll_append, seeAll_polls]

theorem seeAll_transactions_cons (c : Config) (w : PanelWatch) (op : Byte) (d : List Byte) (m : Nat)
    (ts : List (Byte × List Byte)) (ms : List Nat) :
    w.seeAll c (Expect.transactions c ((op, d) :: ts) (m :: ms)) =
      (between ((flushed c w).receive c { cmd := op, data := d })).seeAll c (Expect.transactions c ts ms) := by
  rw [Expect.transactions, seeAll_append, seeAll_append, seeAll_frame, seeAll_wait]

theorem seeAll_transactions_nil (c : Config) (w : PanelWatch) : w.seeAll c (Expect.transactions c [] []) = w := rfl

@[simp] theorem flushed_between (c : Config) (v : PanelView) : flushed c (between v) = v := rfl

/-! ### A refresh -/

/-- The panel that has received two planes and a refresh, before its operation completes (log 20). -/
def refreshing (a b : List Byte) : PanelView :=
  { oldData := some a, newData := some b, refreshing := some (a, b), surface := none }

/-- Both planes and a refresh, whatever was sent before. -/
theorem seeAll_planes {c : Config} {a b : List Byte} (ha : a.length = c.npl) (hb : b.length = c.npl) {ms : List Nat}
    (hlen : ms.length = 3) (w : PanelWatch) :
    w.seeAll c (Expect.transactions c [(0x10, a), (0x13, b), (0x12, [])] ms) = between (refreshing a b) := by
  obtain ⟨m0, m1, m2, rfl⟩ := List.length_eq_three.mp hlen
  simp only [seeAll_transactions_cons, seeAll_transactions_nil, flushed_between]
  simp [PanelView.receive, wholePlane, PanelView.planes, ha, hb, refreshing]

/-- The OpDone of a DISPLAY or a CLEAR puts the planes on the surface (60_exceptions.md R270). -/
theorem surface_of_opDone {c : Config} {a b : List Byte} {op : OpCode} (hop : op = opDisplay ∨ op = opClear) :
    ((between (refreshing a b)).seeAll c [.opDone op .none]).panel.surface = some (a, b) := by
  obtain rfl | rfl := hop <;> rfl

/-! ### The shades shown -/

@[simp] theorem intendedShade_planeBits (sh : Shade) : intendedShade sh.planeBits = sh := by
  cases sh <;> rfl

theorem planeBit_plane {s : State} (hwf : s.cfg.wellFormed = true) (bit : Nat) {i : Nat} (hi : i < s.cfg.npix) :
    planeBit (Expect.plane s bit) i = (samplePixel s i).getLsbD bit := by
  have ho : i / 8 < s.cfg.npl := by rw [npix_eq hwf] at hi; omega
  have hbyte : (Expect.plane s bit).getD (i / 8) 0 = planeByte s bit (i / 8) := by
    simp [Expect.plane, ho, planeByte]
  rw [planeBit, hbyte, planeByte, getLsbD_scanByte _ (Nat.mod_lt i (by decide)), Nat.div_add_mod]

theorem planeBit_white {c : Config} (hwf : c.wellFormed = true) {i : Nat} (hi : i < c.npix) :
    planeBit (List.replicate c.npl 0xFF) i = true := by
  have ho : i / 8 < c.npl := by rw [npix_eq hwf] at hi; omega
  have hk : 7 - i % 8 < 8 := by omega
  have hall : ∀ k < 8, (0xFF : Byte).getLsbD k = true := by decide
  rw [planeBit, List.getD_replicate _ ho]
  exact hall _ hk

theorem intendedPixel_planes {s : State} (hwf : s.cfg.wellFormed = true) {i : Nat} (hi : i < s.cfg.npix) :
    intendedPixel (Expect.plane s 7, Expect.plane s 6) i = shadeOfCode (quantise (samplePixel s i)) := by
  rw [intendedPixel, planeBit_plane hwf 7 hi, planeBit_plane hwf 6 hi, ← planeBits_of_pixel, intendedShade_planeBits]

/-- Settles O38: the two planes sent are on the surface once OpDone is recorded, and their bits are those of the sampled
pixels, or all 1. -/
theorem refreshShowsTheSampledShades : Obligations.RefreshShowsTheSampledShades := by
  intro s w ms hwf hlen
  have hdisplay := seeAll_planes (length_plane s 7) (length_plane s 6) hlen w
  have hclear := seeAll_planes (c := s.cfg) (a := List.replicate s.cfg.npl 0xFF) (b := List.replicate s.cfg.npl 0xFF)
    List.length_replicate List.length_replicate hlen w
  rw [Expect.displayEvents, Expect.clearEvents, seeAll_append, seeAll_append, hdisplay, hclear]
  refine ⟨rfl, ⟨_, surface_of_opDone (.inl rfl), fun i hi => ⟨intendedPixel_planes hwf hi, fun hn => ?_⟩⟩, rfl,
    _, surface_of_opDone (.inr rfl), fun i hi => ?_⟩
  · rw [intendedPixel_planes hwf hi, samplePixel_of_nominal hn]
  · rw [intendedPixel, planeBit_white hwf hi]
    rfl

/-! ### What does not survive -/

/-- After power-off and deep sleep nothing is known of the panel (60_exceptions.md R279). -/
theorem seeAll_sleep (c : Config) (w : PanelWatch) {ms : List Nat} (hlen : ms.length = 2) :
    w.seeAll c (Expect.transactions c [(0x02, []), (0x07, [0xA5])] ms) = between PanelView.unknown := by
  obtain ⟨m, n, rfl⟩ := List.length_eq_two.mp hlen
  simp only [seeAll_transactions_cons, seeAll_transactions_nil, flushed_between]
  simp [PanelView.receive]

theorem see_panel (c : Config) (w : PanelWatch) (e : Event) :
    (w.see c e).panel = ((w.cut.next e).1.elim w.panel (w.panel.receive c)).observe e := rfl

/-- Settles O59: SLEEP's two commands, the first fall of RESET, an abort and a block reset each leave nothing known. -/
theorem nothingSentBeforeSleepSurvives : Obligations.NothingSentBeforeSleepSurvives := by
  intro c w
  refine ⟨fun ms hlen => ?_, rfl, fun op e he => ?_, fun p => by rw [see_panel, observe_blockReset]⟩
  · rw [seeAll_append, seeAll_sleep c w hlen]
    rfl
  · obtain rfl | rfl := he
    · rw [see_panel, observe_busFailure]
    · rw [see_panel, observe_deviceUnresponsive]

end Sys2Proof.Proofs
